-- ==== Sys2Proof/Word.lean ====
section
/-! DEFINITION. The two word widths of the core (R9): an 8-bit byte and a 16-bit address. -/
namespace Sys2Proof

/-- One unsigned 8-bit value: a register, a memory byte, an opcode (R9, R21). -/
abbrev Byte := BitVec 8

/-- One unsigned 16-bit value: an address or an extended register (R9, R23). -/
abbrev Addr := BitVec 16

end Sys2Proof
end

