-- ==== Sys2Proof/Syntax.lean ====
section
/-! DEFINITION. The instructions of JGB-LA: one constructor of `Instr` per row of the opcode table (R6, R102, R109). -/
namespace Sys2Proof

/-- The seven registers an opcode can name (R92); F, SP and PC have no code. -/
inductive OpReg where
  | b | c | d | e | h | l | a
deriving DecidableEq, Repr

/-- The two pairs, beside HL, that address memory in a load or store of A (R172, R173, R177, R178). -/
inductive AccPair where
  | bc | de
deriving DecidableEq, Repr

/-- The eight operations of the ALU quadrant, in the order of their codes (R92). -/
inductive AluOp where
  | add | adc | sub | sbc | and | xor | or | cp
deriving DecidableEq, Repr

/-- The right operand of an accumulator operation (R191). -/
inductive AluSrc where
  | reg (r : OpReg)
  | indHL
  | imm (n : Byte)
deriving DecidableEq, Repr

/-- What an increment or decrement works on (R203 to R206). -/
inductive Place where
  | reg (r : OpReg)
  | indHL
deriving DecidableEq, Repr

/-- The families of the instruction set: each rule of an instruction names one of these forms, and `Instr.form` says which form
a row of the table is. -/
inductive Form where
  | ldRegReg (dst src : OpReg)          -- LD r,r'      (R161)
  | ldRegImm (dst : OpReg) (n : Byte)   -- LD r,n       (R162)
  | ldRegInd (dst : OpReg)              -- LD r,(HL)    (R171)
  | ldAccPair (p : AccPair)             -- LD A,(BC), LD A,(DE)  (R172, R173)
  | ldAccAbs (nn : Addr)                -- LD A,(nn)    (R174)
  | ldAccPort                           -- LD A,(C)     (R175)
  | ldIndReg (src : OpReg)              -- LD (HL),r    (R176)
  | ldPairAcc (p : AccPair)             -- LD (BC),A, LD (DE),A  (R177, R178)
  | ldAbsAcc (nn : Addr)                -- LD (nn),A    (R179)
  | ldPortAcc                           -- LD (C),A     (R180)
  | alu (op : AluOp) (src : AluSrc)     -- ADD to CP    (R195 to R202)
  | inc (x : Place)                     -- INC          (R203, R204)
  | dec (x : Place)                     -- DEC          (R205, R206)
deriving DecidableEq, Repr

/-- One constructor per row of the opcode table, in the order of the opcodes (R102). A name is the mnemonic, destination first:
`IndHL` is `(HL)`, `IndBC` is `(BC)`, `IndDE` is `(DE)`, `Abs` is `(nn)`, `PortC` is `(C)`, `Imm` is `n`; single letters are
registers, so `ldBC` is `LD B,C`. -/
inductive Instr where
  | ldIndBCA -- LD (BC),A
  | incB -- INC B
  | decB -- DEC B
  | ldBImm (n : Byte) -- LD B,n
  | ldAIndBC -- LD A,(BC)
  | incC -- INC C
  | decC -- DEC C
  | ldCImm (n : Byte) -- LD C,n
  | ldIndDEA -- LD (DE),A
  | incD -- INC D
  | decD -- DEC D
  | ldDImm (n : Byte) -- LD D,n
  | ldAIndDE -- LD A,(DE)
  | incE -- INC E
  | decE -- DEC E
  | ldEImm (n : Byte) -- LD E,n
  | incH -- INC H
  | decH -- DEC H
  | ldHImm (n : Byte) -- LD H,n
  | incL -- INC L
  | decL -- DEC L
  | ldLImm (n : Byte) -- LD L,n
  | incIndHL -- INC (HL)
  | decIndHL -- DEC (HL)
  | incA -- INC A
  | decA -- DEC A
  | ldAImm (n : Byte) -- LD A,n
  | ldBB -- LD B,B
  | ldBC -- LD B,C
  | ldBD -- LD B,D
  | ldBE -- LD B,E
  | ldBH -- LD B,H
  | ldBL -- LD B,L
  | ldBIndHL -- LD B,(HL)
  | ldBA -- LD B,A
  | ldCB -- LD C,B
  | ldCC -- LD C,C
  | ldCD -- LD C,D
  | ldCE -- LD C,E
  | ldCH -- LD C,H
  | ldCL -- LD C,L
  | ldCIndHL -- LD C,(HL)
  | ldCA -- LD C,A
  | ldDB -- LD D,B
  | ldDC -- LD D,C
  | ldDD -- LD D,D
  | ldDE -- LD D,E
  | ldDH -- LD D,H
  | ldDL -- LD D,L
  | ldDIndHL -- LD D,(HL)
  | ldDA -- LD D,A
  | ldEB -- LD E,B
  | ldEC -- LD E,C
  | ldED -- LD E,D
  | ldEE -- LD E,E
  | ldEH -- LD E,H
  | ldEL -- LD E,L
  | ldEIndHL -- LD E,(HL)
  | ldEA -- LD E,A
  | ldHB -- LD H,B
  | ldHC -- LD H,C
  | ldHD -- LD H,D
  | ldHE -- LD H,E
  | ldHH -- LD H,H
  | ldHL -- LD H,L
  | ldHIndHL -- LD H,(HL)
  | ldHA -- LD H,A
  | ldLB -- LD L,B
  | ldLC -- LD L,C
  | ldLD -- LD L,D
  | ldLE -- LD L,E
  | ldLH -- LD L,H
  | ldLL -- LD L,L
  | ldLIndHL -- LD L,(HL)
  | ldLA -- LD L,A
  | ldIndHLB -- LD (HL),B
  | ldIndHLC -- LD (HL),C
  | ldIndHLD -- LD (HL),D
  | ldIndHLE -- LD (HL),E
  | ldIndHLH -- LD (HL),H
  | ldIndHLL -- LD (HL),L
  | ldIndHLA -- LD (HL),A
  | ldAB -- LD A,B
  | ldAC -- LD A,C
  | ldAD -- LD A,D
  | ldAE -- LD A,E
  | ldAH -- LD A,H
  | ldAL -- LD A,L
  | ldAIndHL -- LD A,(HL)
  | ldAA -- LD A,A
  | addAB -- ADD A,B
  | addAC -- ADD A,C
  | addAD -- ADD A,D
  | addAE -- ADD A,E
  | addAH -- ADD A,H
  | addAL -- ADD A,L
  | addAIndHL -- ADD A,(HL)
  | addAA -- ADD A,A
  | adcAB -- ADC A,B
  | adcAC -- ADC A,C
  | adcAD -- ADC A,D
  | adcAE -- ADC A,E
  | adcAH -- ADC A,H
  | adcAL -- ADC A,L
  | adcAIndHL -- ADC A,(HL)
  | adcAA -- ADC A,A
  | subB -- SUB B
  | subC -- SUB C
  | subD -- SUB D
  | subE -- SUB E
  | subH -- SUB H
  | subL -- SUB L
  | subIndHL -- SUB (HL)
  | subA -- SUB A
  | sbcAB -- SBC A,B
  | sbcAC -- SBC A,C
  | sbcAD -- SBC A,D
  | sbcAE -- SBC A,E
  | sbcAH -- SBC A,H
  | sbcAL -- SBC A,L
  | sbcAIndHL -- SBC A,(HL)
  | sbcAA -- SBC A,A
  | andB -- AND B
  | andC -- AND C
  | andD -- AND D
  | andE -- AND E
  | andH -- AND H
  | andL -- AND L
  | andIndHL -- AND (HL)
  | andA -- AND A
  | xorB -- XOR B
  | xorC -- XOR C
  | xorD -- XOR D
  | xorE -- XOR E
  | xorH -- XOR H
  | xorL -- XOR L
  | xorIndHL -- XOR (HL)
  | xorA -- XOR A
  | orB -- OR B
  | orC -- OR C
  | orD -- OR D
  | orE -- OR E
  | orH -- OR H
  | orL -- OR L
  | orIndHL -- OR (HL)
  | orA -- OR A
  | cpB -- CP B
  | cpC -- CP C
  | cpD -- CP D
  | cpE -- CP E
  | cpH -- CP H
  | cpL -- CP L
  | cpIndHL -- CP (HL)
  | cpA -- CP A
  | addAImm (n : Byte) -- ADD A,n
  | adcAImm (n : Byte) -- ADC A,n
  | subImm (n : Byte) -- SUB n
  | sbcAImm (n : Byte) -- SBC A,n
  | ldPortCA -- LD (C),A
  | andImm (n : Byte) -- AND n
  | ldAbsA (nn : Addr) -- LD (nn),A
  | xorImm (n : Byte) -- XOR n
  | ldAPortC -- LD A,(C)
  | orImm (n : Byte) -- OR n
  | ldAAbs (nn : Addr) -- LD A,(nn)
  | cpImm (n : Byte) -- CP n
deriving DecidableEq, Repr

end Sys2Proof
end

