-- ==== Sys2Proof/Decode.lean ====
section
/-! DEFINITION. The decoder, from the opcode map of R102, and after it the encoder, from the encoding formulas of the instruction
rules (R161 to R206). -/
namespace Sys2Proof

/-! ### The decoder -/

/-- The 16-bit value `hi:lo`, which is `hi * 256 + lo` (R11, R95). -/
def wordOf (hi lo : Byte) : Addr := BitVec.ofNat 16 (hi.toNat * 256 + lo.toNat)

/-- Bits 15 to 8 of a 16-bit value (R11). -/
def hiByte (w : Addr) : Byte := BitVec.ofNat 8 (w.toNat / 256)

/-- Bits 7 to 0 of a 16-bit value (R11). -/
def loByte (w : Addr) : Byte := BitVec.ofNat 8 w.toNat

/-- The three formats of R91, each with the instruction its operand bytes make. -/
inductive Layout where
  | s (i : Instr)           -- single byte
  | i (f : Byte → Instr)    -- opcode and 8-bit immediate
  | w (f : Addr → Instr)    -- opcode and 16-bit absolute address

/-- `LEN`: how many bytes an instruction of a format has (R90, R91). -/
def Layout.len : Layout → Nat
  | .s _ => 1
  | .i _ => 2
  | .w _ => 3

/-- One entry of the dispatch table. -/
structure Row where
  opcode : Byte
  layout : Layout

/-- Row 0x of the map of R102. -/
def opcodeRow0 : List Row :=
  [⟨0x02, .s .ldIndBCA⟩, ⟨0x04, .s .incB⟩, ⟨0x05, .s .decB⟩, ⟨0x06, .i .ldBImm⟩,
   ⟨0x0A, .s .ldAIndBC⟩, ⟨0x0C, .s .incC⟩, ⟨0x0D, .s .decC⟩, ⟨0x0E, .i .ldCImm⟩]

/-- Row 1x of the map of R102. -/
def opcodeRow1 : List Row :=
  [⟨0x12, .s .ldIndDEA⟩, ⟨0x14, .s .incD⟩, ⟨0x15, .s .decD⟩, ⟨0x16, .i .ldDImm⟩,
   ⟨0x1A, .s .ldAIndDE⟩, ⟨0x1C, .s .incE⟩, ⟨0x1D, .s .decE⟩, ⟨0x1E, .i .ldEImm⟩]

/-- Row 2x of the map of R102. -/
def opcodeRow2 : List Row :=
  [⟨0x24, .s .incH⟩, ⟨0x25, .s .decH⟩, ⟨0x26, .i .ldHImm⟩, ⟨0x2C, .s .incL⟩,
   ⟨0x2D, .s .decL⟩, ⟨0x2E, .i .ldLImm⟩]

/-- Row 3x of the map of R102. -/
def opcodeRow3 : List Row :=
  [⟨0x34, .s .incIndHL⟩, ⟨0x35, .s .decIndHL⟩, ⟨0x3C, .s .incA⟩, ⟨0x3D, .s .decA⟩,
   ⟨0x3E, .i .ldAImm⟩]

/-- Row 4x of the map of R102. -/
def opcodeRow4 : List Row :=
  [⟨0x40, .s .ldBB⟩, ⟨0x41, .s .ldBC⟩, ⟨0x42, .s .ldBD⟩, ⟨0x43, .s .ldBE⟩,
   ⟨0x44, .s .ldBH⟩, ⟨0x45, .s .ldBL⟩, ⟨0x46, .s .ldBIndHL⟩, ⟨0x47, .s .ldBA⟩,
   ⟨0x48, .s .ldCB⟩, ⟨0x49, .s .ldCC⟩, ⟨0x4A, .s .ldCD⟩, ⟨0x4B, .s .ldCE⟩,
   ⟨0x4C, .s .ldCH⟩, ⟨0x4D, .s .ldCL⟩, ⟨0x4E, .s .ldCIndHL⟩, ⟨0x4F, .s .ldCA⟩]

/-- Row 5x of the map of R102. -/
def opcodeRow5 : List Row :=
  [⟨0x50, .s .ldDB⟩, ⟨0x51, .s .ldDC⟩, ⟨0x52, .s .ldDD⟩, ⟨0x53, .s .ldDE⟩,
   ⟨0x54, .s .ldDH⟩, ⟨0x55, .s .ldDL⟩, ⟨0x56, .s .ldDIndHL⟩, ⟨0x57, .s .ldDA⟩,
   ⟨0x58, .s .ldEB⟩, ⟨0x59, .s .ldEC⟩, ⟨0x5A, .s .ldED⟩, ⟨0x5B, .s .ldEE⟩,
   ⟨0x5C, .s .ldEH⟩, ⟨0x5D, .s .ldEL⟩, ⟨0x5E, .s .ldEIndHL⟩, ⟨0x5F, .s .ldEA⟩]

/-- Row 6x of the map of R102. -/
def opcodeRow6 : List Row :=
  [⟨0x60, .s .ldHB⟩, ⟨0x61, .s .ldHC⟩, ⟨0x62, .s .ldHD⟩, ⟨0x63, .s .ldHE⟩,
   ⟨0x64, .s .ldHH⟩, ⟨0x65, .s .ldHL⟩, ⟨0x66, .s .ldHIndHL⟩, ⟨0x67, .s .ldHA⟩,
   ⟨0x68, .s .ldLB⟩, ⟨0x69, .s .ldLC⟩, ⟨0x6A, .s .ldLD⟩, ⟨0x6B, .s .ldLE⟩,
   ⟨0x6C, .s .ldLH⟩, ⟨0x6D, .s .ldLL⟩, ⟨0x6E, .s .ldLIndHL⟩, ⟨0x6F, .s .ldLA⟩]

/-- Row 7x of the map of R102. -/
def opcodeRow7 : List Row :=
  [⟨0x70, .s .ldIndHLB⟩, ⟨0x71, .s .ldIndHLC⟩, ⟨0x72, .s .ldIndHLD⟩, ⟨0x73, .s .ldIndHLE⟩,
   ⟨0x74, .s .ldIndHLH⟩, ⟨0x75, .s .ldIndHLL⟩, ⟨0x77, .s .ldIndHLA⟩, ⟨0x78, .s .ldAB⟩,
   ⟨0x79, .s .ldAC⟩, ⟨0x7A, .s .ldAD⟩, ⟨0x7B, .s .ldAE⟩, ⟨0x7C, .s .ldAH⟩,
   ⟨0x7D, .s .ldAL⟩, ⟨0x7E, .s .ldAIndHL⟩, ⟨0x7F, .s .ldAA⟩]

/-- Row 8x of the map of R102. -/
def opcodeRow8 : List Row :=
  [⟨0x80, .s .addAB⟩, ⟨0x81, .s .addAC⟩, ⟨0x82, .s .addAD⟩, ⟨0x83, .s .addAE⟩,
   ⟨0x84, .s .addAH⟩, ⟨0x85, .s .addAL⟩, ⟨0x86, .s .addAIndHL⟩, ⟨0x87, .s .addAA⟩,
   ⟨0x88, .s .adcAB⟩, ⟨0x89, .s .adcAC⟩, ⟨0x8A, .s .adcAD⟩, ⟨0x8B, .s .adcAE⟩,
   ⟨0x8C, .s .adcAH⟩, ⟨0x8D, .s .adcAL⟩, ⟨0x8E, .s .adcAIndHL⟩, ⟨0x8F, .s .adcAA⟩]

/-- Row 9x of the map of R102. -/
def opcodeRow9 : List Row :=
  [⟨0x90, .s .subB⟩, ⟨0x91, .s .subC⟩, ⟨0x92, .s .subD⟩, ⟨0x93, .s .subE⟩,
   ⟨0x94, .s .subH⟩, ⟨0x95, .s .subL⟩, ⟨0x96, .s .subIndHL⟩, ⟨0x97, .s .subA⟩,
   ⟨0x98, .s .sbcAB⟩, ⟨0x99, .s .sbcAC⟩, ⟨0x9A, .s .sbcAD⟩, ⟨0x9B, .s .sbcAE⟩,
   ⟨0x9C, .s .sbcAH⟩, ⟨0x9D, .s .sbcAL⟩, ⟨0x9E, .s .sbcAIndHL⟩, ⟨0x9F, .s .sbcAA⟩]

/-- Row Ax of the map of R102. -/
def opcodeRowA : List Row :=
  [⟨0xA0, .s .andB⟩, ⟨0xA1, .s .andC⟩, ⟨0xA2, .s .andD⟩, ⟨0xA3, .s .andE⟩,
   ⟨0xA4, .s .andH⟩, ⟨0xA5, .s .andL⟩, ⟨0xA6, .s .andIndHL⟩, ⟨0xA7, .s .andA⟩,
   ⟨0xA8, .s .xorB⟩, ⟨0xA9, .s .xorC⟩, ⟨0xAA, .s .xorD⟩, ⟨0xAB, .s .xorE⟩,
   ⟨0xAC, .s .xorH⟩, ⟨0xAD, .s .xorL⟩, ⟨0xAE, .s .xorIndHL⟩, ⟨0xAF, .s .xorA⟩]

/-- Row Bx of the map of R102. -/
def opcodeRowB : List Row :=
  [⟨0xB0, .s .orB⟩, ⟨0xB1, .s .orC⟩, ⟨0xB2, .s .orD⟩, ⟨0xB3, .s .orE⟩,
   ⟨0xB4, .s .orH⟩, ⟨0xB5, .s .orL⟩, ⟨0xB6, .s .orIndHL⟩, ⟨0xB7, .s .orA⟩,
   ⟨0xB8, .s .cpB⟩, ⟨0xB9, .s .cpC⟩, ⟨0xBA, .s .cpD⟩, ⟨0xBB, .s .cpE⟩,
   ⟨0xBC, .s .cpH⟩, ⟨0xBD, .s .cpL⟩, ⟨0xBE, .s .cpIndHL⟩, ⟨0xBF, .s .cpA⟩]

/-- Row Cx of the map of R102. -/
def opcodeRowC : List Row :=
  [⟨0xC6, .i .addAImm⟩, ⟨0xCE, .i .adcAImm⟩]

/-- Row Dx of the map of R102. -/
def opcodeRowD : List Row :=
  [⟨0xD6, .i .subImm⟩, ⟨0xDE, .i .sbcAImm⟩]

/-- Row Ex of the map of R102. -/
def opcodeRowE : List Row :=
  [⟨0xE2, .s .ldPortCA⟩, ⟨0xE6, .i .andImm⟩, ⟨0xEA, .w .ldAbsA⟩, ⟨0xEE, .i .xorImm⟩]

/-- Row Fx of the map of R102. -/
def opcodeRowF : List Row :=
  [⟨0xF2, .s .ldAPortC⟩, ⟨0xF6, .i .orImm⟩, ⟨0xFA, .w .ldAAbs⟩, ⟨0xFE, .i .cpImm⟩]

/-- The map of R102: 166 entries. -/
def opcodeTable : List Row :=
  opcodeRow0 ++ opcodeRow1 ++ opcodeRow2 ++ opcodeRow3 ++ opcodeRow4 ++ opcodeRow5 ++ opcodeRow6 ++ opcodeRow7 ++ 
  opcodeRow8 ++ opcodeRow9 ++ opcodeRowA ++ opcodeRowB ++ opcodeRowC ++ opcodeRowD ++ opcodeRowE ++ opcodeRowF

/-- The entry of an opcode, or none: the opcode is undefined (R104, R121, R131). -/
def lookupOpcode (op : Byte) : Option Layout :=
  (opcodeTable.find? (fun row => row.opcode == op)).map Row.layout

/-- What the decoder answers. -/
inductive Decoded where
  | instr (i : Instr) (rest : List Byte)
  | undefinedOpcode (op : Byte)
  | truncated (op : Byte)      -- the list ends before the instruction does
  | empty                      -- there is no byte at all
deriving DecidableEq, Repr

/-- The instruction the first bytes of a list spell, and the bytes after it (R90, R91, R95, R96, R109). -/
def decode : List Byte → Decoded
  | [] => .empty
  | op :: bytes =>
    match lookupOpcode op with
    | none => .undefinedOpcode op
    | some (.s i) => .instr i bytes
    | some (.i f) =>
      match bytes with
      | n :: rest => .instr (f n) rest
      | [] => .truncated op
    | some (.w f) =>
      match bytes with
      | lo :: hi :: rest => .instr (f (wordOf hi lo)) rest
      | _ => .truncated op

/-- The longest instruction has three bytes (R90). -/
def maxLen : Nat := 3

/-- The `k` lowest bytes of a number, least significant first. -/
def bytesOf : Nat → Nat → List Byte
  | 0,     _ => []
  | k + 1, w => BitVec.ofNat 8 w :: bytesOf k (w / 256)

/-- The bytes of a table word: its bits below `nbits`, and zeros above, up to the longest instruction. -/
def tableWordBytes (nbits w : Nat) : List Byte := bytesOf maxLen (w % 2 ^ nbits)

/-- The instruction the decoder reads from a table word: the opcode is the first byte, at the lowest address. -/
def decodeTableWord (nbits w : Nat) : Option Instr :=
  match decode (tableWordBytes nbits w) with
  | .instr i _ => some i
  | _ => none

/-! ### The encoder -/

/-- The 3-bit operand code of a register (R92). -/
def OpReg.code : OpReg → Nat
  | .b => 0 | .c => 1 | .d => 2 | .e => 3 | .h => 4 | .l => 5 | .a => 7

/-- The operation code of the ALU quadrant (R92). -/
def AluOp.code : AluOp → Nat
  | .add => 0 | .adc => 1 | .sub => 2 | .sbc => 3 | .and => 4 | .xor => 5 | .or => 6 | .cp => 7

/-- The operand code of a place: a register's, or 6 for `(HL)` (R92). -/
def Place.code : Place → Nat
  | .reg r => r.code
  | .indHL => 6

/-- Which family, with which operands, a row of the table is (its `fields`, R109). -/
def Instr.form : Instr → Form
  | .ldIndBCA => .ldPairAcc .bc
  | .incB => .inc (.reg .b)
  | .decB => .dec (.reg .b)
  | .ldBImm n => .ldRegImm .b n
  | .ldAIndBC => .ldAccPair .bc
  | .incC => .inc (.reg .c)
  | .decC => .dec (.reg .c)
  | .ldCImm n => .ldRegImm .c n
  | .ldIndDEA => .ldPairAcc .de
  | .incD => .inc (.reg .d)
  | .decD => .dec (.reg .d)
  | .ldDImm n => .ldRegImm .d n
  | .ldAIndDE => .ldAccPair .de
  | .incE => .inc (.reg .e)
  | .decE => .dec (.reg .e)
  | .ldEImm n => .ldRegImm .e n
  | .incH => .inc (.reg .h)
  | .decH => .dec (.reg .h)
  | .ldHImm n => .ldRegImm .h n
  | .incL => .inc (.reg .l)
  | .decL => .dec (.reg .l)
  | .ldLImm n => .ldRegImm .l n
  | .incIndHL => .inc .indHL
  | .decIndHL => .dec .indHL
  | .incA => .inc (.reg .a)
  | .decA => .dec (.reg .a)
  | .ldAImm n => .ldRegImm .a n
  | .ldBB => .ldRegReg .b .b
  | .ldBC => .ldRegReg .b .c
  | .ldBD => .ldRegReg .b .d
  | .ldBE => .ldRegReg .b .e
  | .ldBH => .ldRegReg .b .h
  | .ldBL => .ldRegReg .b .l
  | .ldBIndHL => .ldRegInd .b
  | .ldBA => .ldRegReg .b .a
  | .ldCB => .ldRegReg .c .b
  | .ldCC => .ldRegReg .c .c
  | .ldCD => .ldRegReg .c .d
  | .ldCE => .ldRegReg .c .e
  | .ldCH => .ldRegReg .c .h
  | .ldCL => .ldRegReg .c .l
  | .ldCIndHL => .ldRegInd .c
  | .ldCA => .ldRegReg .c .a
  | .ldDB => .ldRegReg .d .b
  | .ldDC => .ldRegReg .d .c
  | .ldDD => .ldRegReg .d .d
  | .ldDE => .ldRegReg .d .e
  | .ldDH => .ldRegReg .d .h
  | .ldDL => .ldRegReg .d .l
  | .ldDIndHL => .ldRegInd .d
  | .ldDA => .ldRegReg .d .a
  | .ldEB => .ldRegReg .e .b
  | .ldEC => .ldRegReg .e .c
  | .ldED => .ldRegReg .e .d
  | .ldEE => .ldRegReg .e .e
  | .ldEH => .ldRegReg .e .h
  | .ldEL => .ldRegReg .e .l
  | .ldEIndHL => .ldRegInd .e
  | .ldEA => .ldRegReg .e .a
  | .ldHB => .ldRegReg .h .b
  | .ldHC => .ldRegReg .h .c
  | .ldHD => .ldRegReg .h .d
  | .ldHE => .ldRegReg .h .e
  | .ldHH => .ldRegReg .h .h
  | .ldHL => .ldRegReg .h .l
  | .ldHIndHL => .ldRegInd .h
  | .ldHA => .ldRegReg .h .a
  | .ldLB => .ldRegReg .l .b
  | .ldLC => .ldRegReg .l .c
  | .ldLD => .ldRegReg .l .d
  | .ldLE => .ldRegReg .l .e
  | .ldLH => .ldRegReg .l .h
  | .ldLL => .ldRegReg .l .l
  | .ldLIndHL => .ldRegInd .l
  | .ldLA => .ldRegReg .l .a
  | .ldIndHLB => .ldIndReg .b
  | .ldIndHLC => .ldIndReg .c
  | .ldIndHLD => .ldIndReg .d
  | .ldIndHLE => .ldIndReg .e
  | .ldIndHLH => .ldIndReg .h
  | .ldIndHLL => .ldIndReg .l
  | .ldIndHLA => .ldIndReg .a
  | .ldAB => .ldRegReg .a .b
  | .ldAC => .ldRegReg .a .c
  | .ldAD => .ldRegReg .a .d
  | .ldAE => .ldRegReg .a .e
  | .ldAH => .ldRegReg .a .h
  | .ldAL => .ldRegReg .a .l
  | .ldAIndHL => .ldRegInd .a
  | .ldAA => .ldRegReg .a .a
  | .addAB => .alu .add (.reg .b)
  | .addAC => .alu .add (.reg .c)
  | .addAD => .alu .add (.reg .d)
  | .addAE => .alu .add (.reg .e)
  | .addAH => .alu .add (.reg .h)
  | .addAL => .alu .add (.reg .l)
  | .addAIndHL => .alu .add .indHL
  | .addAA => .alu .add (.reg .a)
  | .adcAB => .alu .adc (.reg .b)
  | .adcAC => .alu .adc (.reg .c)
  | .adcAD => .alu .adc (.reg .d)
  | .adcAE => .alu .adc (.reg .e)
  | .adcAH => .alu .adc (.reg .h)
  | .adcAL => .alu .adc (.reg .l)
  | .adcAIndHL => .alu .adc .indHL
  | .adcAA => .alu .adc (.reg .a)
  | .subB => .alu .sub (.reg .b)
  | .subC => .alu .sub (.reg .c)
  | .subD => .alu .sub (.reg .d)
  | .subE => .alu .sub (.reg .e)
  | .subH => .alu .sub (.reg .h)
  | .subL => .alu .sub (.reg .l)
  | .subIndHL => .alu .sub .indHL
  | .subA => .alu .sub (.reg .a)
  | .sbcAB => .alu .sbc (.reg .b)
  | .sbcAC => .alu .sbc (.reg .c)
  | .sbcAD => .alu .sbc (.reg .d)
  | .sbcAE => .alu .sbc (.reg .e)
  | .sbcAH => .alu .sbc (.reg .h)
  | .sbcAL => .alu .sbc (.reg .l)
  | .sbcAIndHL => .alu .sbc .indHL
  | .sbcAA => .alu .sbc (.reg .a)
  | .andB => .alu .and (.reg .b)
  | .andC => .alu .and (.reg .c)
  | .andD => .alu .and (.reg .d)
  | .andE => .alu .and (.reg .e)
  | .andH => .alu .and (.reg .h)
  | .andL => .alu .and (.reg .l)
  | .andIndHL => .alu .and .indHL
  | .andA => .alu .and (.reg .a)
  | .xorB => .alu .xor (.reg .b)
  | .xorC => .alu .xor (.reg .c)
  | .xorD => .alu .xor (.reg .d)
  | .xorE => .alu .xor (.reg .e)
  | .xorH => .alu .xor (.reg .h)
  | .xorL => .alu .xor (.reg .l)
  | .xorIndHL => .alu .xor .indHL
  | .xorA => .alu .xor (.reg .a)
  | .orB => .alu .or (.reg .b)
  | .orC => .alu .or (.reg .c)
  | .orD => .alu .or (.reg .d)
  | .orE => .alu .or (.reg .e)
  | .orH => .alu .or (.reg .h)
  | .orL => .alu .or (.reg .l)
  | .orIndHL => .alu .or .indHL
  | .orA => .alu .or (.reg .a)
  | .cpB => .alu .cp (.reg .b)
  | .cpC => .alu .cp (.reg .c)
  | .cpD => .alu .cp (.reg .d)
  | .cpE => .alu .cp (.reg .e)
  | .cpH => .alu .cp (.reg .h)
  | .cpL => .alu .cp (.reg .l)
  | .cpIndHL => .alu .cp .indHL
  | .cpA => .alu .cp (.reg .a)
  | .addAImm n => .alu .add (.imm n)
  | .adcAImm n => .alu .adc (.imm n)
  | .subImm n => .alu .sub (.imm n)
  | .sbcAImm n => .alu .sbc (.imm n)
  | .ldPortCA => .ldPortAcc
  | .andImm n => .alu .and (.imm n)
  | .ldAbsA nn => .ldAbsAcc nn
  | .xorImm n => .alu .xor (.imm n)
  | .ldAPortC => .ldAccPort
  | .orImm n => .alu .or (.imm n)
  | .ldAAbs nn => .ldAccAbs nn
  | .cpImm n => .alu .cp (.imm n)

/-- The opcode byte of a form, by the formula of its rule. -/
def Form.opcode : Form → Byte
  | .ldRegReg dst src => BitVec.ofNat 8 (0x40 + 8 * dst.code + src.code)
  | .ldRegImm dst _  => BitVec.ofNat 8 (0x06 + 8 * dst.code)
  | .ldRegInd dst    => BitVec.ofNat 8 (0x46 + 8 * dst.code)
  | .ldAccPair .bc   => 0x0A
  | .ldAccPair .de   => 0x1A
  | .ldAccAbs _      => 0xFA
  | .ldAccPort       => 0xF2
  | .ldIndReg src    => BitVec.ofNat 8 (0x70 + src.code)
  | .ldPairAcc .bc   => 0x02
  | .ldPairAcc .de   => 0x12
  | .ldAbsAcc _      => 0xEA
  | .ldPortAcc       => 0xE2
  | .alu op (.reg r) => BitVec.ofNat 8 (0x80 + 8 * op.code + r.code)
  | .alu op .indHL   => BitVec.ofNat 8 (0x86 + 8 * op.code)
  | .alu op (.imm _) => BitVec.ofNat 8 (0xC6 + 8 * op.code)
  | .inc x           => BitVec.ofNat 8 (0x04 + 8 * x.code)
  | .dec x           => BitVec.ofNat 8 (0x05 + 8 * x.code)

/-- The operand bytes that follow the opcode, a 16-bit address low byte first (R91, R95). -/
def Form.operands : Form → List Byte
  | .ldRegImm _ n     => [n]
  | .alu _ (.imm n)   => [n]
  | .ldAccAbs nn      => [loByte nn, hiByte nn]
  | .ldAbsAcc nn      => [loByte nn, hiByte nn]
  | .ldRegReg _ _     => []
  | .ldRegInd _       => []
  | .ldAccPair _      => []
  | .ldAccPort        => []
  | .ldIndReg _       => []
  | .ldPairAcc _      => []
  | .ldPortAcc        => []
  | .alu _ (.reg _)   => []
  | .alu _ .indHL     => []
  | .inc _            => []
  | .dec _            => []

/-- The opcode byte of an instruction. -/
def Instr.opcode (i : Instr) : Byte := i.form.opcode

/-- `LEN`: the number of bytes of an instruction (R90). -/
def Instr.len (i : Instr) : Nat := 1 + i.form.operands.length

/-- The declared cost of a form (R103). -/
def Form.cost : Form → Nat
  | .ldRegReg _ _    => 4
  | .ldRegImm _ _    => 8
  | .ldRegInd _      => 8
  | .ldAccPair _     => 8
  | .ldAccAbs _      => 16
  | .ldAccPort       => 8
  | .ldIndReg _      => 8
  | .ldPairAcc _     => 8
  | .ldAbsAcc _      => 16
  | .ldPortAcc       => 8
  | .alu _ (.reg _)  => 4
  | .alu _ .indHL    => 8
  | .alu _ (.imm _)  => 8
  | .inc (.reg _)    => 4
  | .inc .indHL      => 12
  | .dec (.reg _)    => 4
  | .dec .indHL      => 12

/-- `COST`: the declared cost of an instruction (R103, R124). -/
def Instr.cost (i : Instr) : Nat := i.form.cost

/-- The bytes of an instruction, the opcode first. -/
def encode (i : Instr) : List Byte := i.opcode :: i.form.operands

end Sys2Proof
end

