-- ==== Sys2Proof/Config.lean ====
section
/-! DEFINITION. What a platform fixes (R10): the memory banks and their permissions, the reference platform REF of R71,
the port base, and the one free value of the spec, the answer of a device bank (R66). -/
namespace Sys2Proof

/-- A bank's capability flag; it has exactly two values (R56). -/
inductive Permission where
  | readWrite
  | readOnly
deriving DecidableEq, Repr

/-- A storage bank returns what was last written; a device bank is an external collaborator (R66). -/
inductive BankKind where
  | storage
  | device
deriving DecidableEq, Repr

/-- A Memory Bank's attributes (R50): it owns the addresses from `offset` up to, not including, `offset + size`. Its bytes
stand in the machine's memory, under their addresses. -/
structure Bank where
  offset : Nat
  size   : Nat
  perm   : Permission
  kind   : BankKind
deriving DecidableEq, Repr

/-- One access a device bank has seen (R66, R70). -/
inductive DeviceEvent where
  | read  (a : Addr)
  | write (a : Addr) (v : Byte)
deriving DecidableEq, Repr

/-- FREE VALUE (R66, U5; log entry 7): the byte a device bank answers to a read of address `a`, after the accesses devices
have seen so far, newest first. It has no body: a claim about it holds whatever a device answers. -/
opaque Config.deviceAnswer : List DeviceEvent → Addr → Byte

/-- The fixed base of port-style addressing (R10, R71, R144). -/
def Config.portBase : Addr := 0xFF00

/-- What a byte of a storage bank that nobody has loaded or written reads as: unspecified in the spec (R39, U4), and R40
forbids to pick zero. DESIGN CHOICE, unsafe: log entry 4. -/
def Config.unloadedByte : Byte := 0xFF

/-- The banks of the reference platform REF (R71). -/
def Config.refBanks : List Bank :=
  [ ⟨0x0000, 0x8000, .readOnly,  .storage⟩,   -- ROM
    ⟨0xC000, 0x2000, .readWrite, .storage⟩,   -- WRAM
    ⟨0xFF00, 0x0100, .readWrite, .storage⟩ ]  -- HIGH

/-- RESET_PC of the reference platform REF (R71). -/
def Config.refResetPc : Addr := 0x0000

end Sys2Proof
end

