-- ==== Sys2Proof/Machine/State.lean ====
section
/-! DEFINITION. The state of the core as plain data, the reasons a step can stop, and the state after reset. -/
namespace Sys2Proof.Machine

/-- The names of the eight 8-bit registers (R20). -/
inductive Reg where
  | a | b | c | d | e | h | l | f
deriving DecidableEq, Repr

/-- The names of the five 16-bit extended registers (R23): BC, DE and HL are views of two registers, SP and PC are stored. -/
inductive ExtReg where
  | bc | de | hl | sp | pc
deriving DecidableEq, Repr

/-- The eight 8-bit registers (R20, R21); F is the flag register (R30). -/
structure Regs where
  a : Byte
  b : Byte
  c : Byte
  d : Byte
  e : Byte
  h : Byte
  l : Byte
  f : Byte
deriving DecidableEq, Repr

/-- The failure kinds in the order of their codes 0 to 7 (R220, R227). -/
inductive FailureKind where
  | noFailure
  | outOfRange
  | permissionDenied
  | unmappedAddress
  | overlapError
  | duplicateOpcode
  | undefinedOpcode
  | badBank
deriving DecidableEq, Repr

/-- The fault latch `status` (R33): `faulted`, the kind of the failure, the failed address or the opcode byte, and the pc of the
instruction that failed. -/
structure Latch where
  faulted : Bool
  kind    : FailureKind
  addr    : Addr
  pc      : Addr
deriving DecidableEq, Repr

/-- The bytes of the storage banks: (address, byte) pairs, addresses strictly rising, no byte that an unlisted address reads as. -/
abbrev Memory := List Host.Cell

/-- The state of the machine. `banks` and `resetPc` are the configuration (R38): no step changes them. `events` is the model's own
record of what devices have seen (R66, U5), newest first. -/
structure State where
  regs    : Regs
  sp      : Addr
  pc      : Addr
  latch   : Latch
  cyc     : Nat
  mem     : Memory
  events  : List DeviceEvent
  banks   : List Bank
  resetPc : Addr
deriving DecidableEq, Repr

/-- Why a step stops for good. -/
inductive Fault where
  /-- Raised by `step` alone, when the fault latch is set: the core has no step until the host resets it (R132, R233).
  Safe: the model stops where the spec says the core has no step. -/
  | coreFaulted
deriving DecidableEq, Repr

/-- What the model gives no meaning. -/
inductive Refusal where
  /-- Raised by an arm of `exec` for an instruction that has no meaning yet. No arm does. Safe. -/
  | notModelled (mnemonic : String)
  /-- Raised by the host's and the loader's range operations, for a span of length 0 (R53, R55, U6); no instruction raises it.
  Safe. -/
  | emptyRange
  /-- Raised by a host action that names a bank the machine does not have; no instruction raises it. Safe. -/
  | noSuchBank
deriving DecidableEq, Repr

/-- The latch with no failure in it (R33, R39). -/
def Latch.clear : Latch := ⟨false, .noFailure, 0, 0⟩

/-- The registers right after power-on. The spec gives them no value (R39) and forbids to pick zero (R40): these are the
"garbage" values of 95_test_vectors.md, Part 3. DESIGN CHOICE, unsafe: log entry 3. -/
def Regs.powerOn : Regs := ⟨0xAA, 0xBB, 0xCC, 0xDD, 0xEE, 0x11, 0x22, 0xFF⟩

/-- The machine right after reset on the reference platform (R39, R71, R250), with nothing loaded into memory.
DESIGN CHOICES: the platform (log entry 2), the registers and SP (log entry 3), no device event yet (log entry 7). -/
def State.reset : State where
  regs    := Regs.powerOn
  sp      := 0xA5A5
  pc      := Config.refResetPc
  latch   := Latch.clear
  cyc     := 0
  mem     := []
  events  := []
  banks   := Config.refBanks
  resetPc := Config.refResetPc

end Sys2Proof.Machine
end

