-- ==== Sys2Proof/Machine/Ops.lean ====
section
/-! DEFINITION. The named operations over registers, memory, banks and the address space; taking a failure (`State.raise`), the
completion of a step (`State.complete`), and the host's reset, which is the only way on after a failure. -/
namespace Sys2Proof

/-- The address lies in the bank's range (R50, R51). -/
def Bank.owns (b : Bank) (a : Nat) : Bool := decide (b.offset ≤ a) && decide (a < b.offset + b.size)

/-- The span of `len` addresses from `a` lies wholly in the bank's range (R53, R55). -/
def Bank.ownsSpan (b : Bank) (a len : Nat) : Bool := decide (b.offset ≤ a) && decide (a + len ≤ b.offset + b.size)

end Sys2Proof

namespace Sys2Proof.Machine

/-! ### The register file -/

/-- `get` of a register (R22). -/
def State.get (s : State) : Reg → Byte
  | .a => s.regs.a
  | .b => s.regs.b
  | .c => s.regs.c
  | .d => s.regs.d
  | .e => s.regs.e
  | .h => s.regs.h
  | .l => s.regs.l
  | .f => s.regs.f

/-- One register of the file replaced. -/
def Regs.put (x : Regs) (v : Byte) : Reg → Regs
  | .a => { x with a := v }
  | .b => { x with b := v }
  | .c => { x with c := v }
  | .d => { x with d := v }
  | .e => { x with e := v }
  | .h => { x with h := v }
  | .l => { x with l := v }
  | .f => { x with f := v }

/-- `set` of a register to a byte (R22). -/
def State.set (s : State) (r : Reg) (v : Byte) : State := { s with regs := s.regs.put v r }

/-- `set` as the host calls it, with any number: the value is truncated modulo 256 (R22). -/
def State.setNat (s : State) (r : Reg) (n : Nat) : State := s.set r (BitVec.ofNat 8 n)

/-- `getExtended` (R24, R26): a pair is composed of its halves, the first-named register high. -/
def State.getExt (s : State) : ExtReg → Addr
  | .bc => wordOf s.regs.b s.regs.c
  | .de => wordOf s.regs.d s.regs.e
  | .hl => wordOf s.regs.h s.regs.l
  | .sp => s.sp
  | .pc => s.pc

/-- `setExtended` to a 16-bit value (R25, R26): both halves of a pair at once. -/
def State.setExt (s : State) (v : Addr) : ExtReg → State
  | .bc => { s with regs := { s.regs with b := hiByte v, c := loByte v } }
  | .de => { s with regs := { s.regs with d := hiByte v, e := loByte v } }
  | .hl => { s with regs := { s.regs with h := hiByte v, l := loByte v } }
  | .sp => { s with sp := v }
  | .pc => { s with pc := v }

/-- `setExtended` as the host calls it: the value is truncated modulo 65536 (R26). -/
def State.setExtNat (s : State) (p : ExtReg) (n : Nat) : State := s.setExt (BitVec.ofNat 16 n) p

/-! ### The bytes of the storage banks -/

/-- The byte at an address; an unlisted address reads as `Config.unloadedByte`. -/
def Memory.read : Memory → Nat → Byte
  | [],          _ => Config.unloadedByte
  | (b, v) :: m, a => if a = b then v else Memory.read m a

/-- The byte at an address replaced, in canonical form: writing what an unlisted address reads as removes the entry. -/
def Memory.write : Memory → Nat → Byte → Memory
  | [],          a, v => if v = Config.unloadedByte then [] else [(a, v)]
  | (b, w) :: m, a, v =>
    if a < b then
      if v = Config.unloadedByte then (b, w) :: m else (a, v) :: (b, w) :: m
    else if a = b then
      if v = Config.unloadedByte then m else (a, v) :: m
    else (b, w) :: Memory.write m a v

/-- The canonical form from address `lo` on: addresses rise strictly and lie in the 16-bit space, and no entry is what an unlisted
address reads as. -/
def Memory.wfFrom : Nat → Memory → Bool
  | _,  []          => true
  | lo, (a, v) :: m => decide (lo ≤ a) && decide (a < 0x10000) && decide (v ≠ Config.unloadedByte) && Memory.wfFrom (a + 1) m

/-- The canonical form of a memory. -/
def Memory.wf (m : Memory) : Bool := Memory.wfFrom 0 m

/-! ### Accesses -/

/-- What an access answers: a value, or a failure with its kind and what the latch records of it. Either way it answers the state
it leaves; on a failure that differs from the state before only in what devices have seen (R229). -/
inductive Access (α : Type) where
  | ok (v : α) (s : State)
  | failed (k : FailureKind) (info : Addr) (s : State)
deriving DecidableEq, Repr

/-- Go on with the value of an access; a failure ends the step there (R80, R230). -/
def Access.andThen {α β : Type} (x : Access α) (f : α → State → Access β) : Access β :=
  match x with
  | .ok v s          => f v s
  | .failed k info s => .failed k info s

/-! ### Banks -/

/-- The byte an in-range read of a bank answers: the stored byte, or whatever the device answers (R52, R66). -/
def State.byteAt (s : State) (b : Bank) (a : Addr) : Byte :=
  match b.kind with
  | .storage => Memory.read s.mem a.toNat
  | .device  => Config.deviceAnswer s.events a

/-- What an in-range read of a bank changes: nothing (R52), but that a device has seen it (R66, R70). -/
def State.noteRead (s : State) (b : Bank) (a : Addr) : State :=
  match b.kind with
  | .storage => s
  | .device  => { s with events := .read a :: s.events }

/-- What an in-range permitted write to a bank changes: the stored byte, or what the device has seen (R54, R66). -/
def State.storeAt (s : State) (b : Bank) (v : Byte) (a : Addr) : State :=
  match b.kind with
  | .storage => { s with mem := Memory.write s.mem a.toNat v }
  | .device  => { s with events := .write a v :: s.events }

/-- `read` of a bank (R52): bounds only, a read never checks permission. -/
def State.bankRead (s : State) (b : Bank) (a : Addr) : Access Byte :=
  if b.owns a.toNat then .ok (s.byteAt b a) (s.noteRead b a) else .failed .outOfRange a s

/-- `write` of a bank (R54): bounds first, then permission. -/
def State.bankWrite (s : State) (b : Bank) (v : Byte) (a : Addr) : Access Unit :=
  if b.owns a.toNat then
    match b.perm with
    | .readOnly  => .failed .permissionDenied a s
    | .readWrite => .ok () (s.storeAt b v a)
  else .failed .outOfRange a s

/-- The bytes of a span that lies in the bank, read in ascending address order (R53). -/
def State.readSpan (s : State) (b : Bank) : Nat → Addr → Access (List Byte)
  | 0,       _ => .ok [] s
  | len + 1, a =>
    (State.readSpan (s.noteRead b a) b len (a + 1)).andThen fun vs t => .ok (s.byteAt b a :: vs) t

/-- The bytes of a span that lies in the bank, written in ascending address order (R55). -/
def State.storeSpan (s : State) (b : Bank) : List Byte → Addr → State
  | [],      _ => s
  | v :: vs, a => State.storeSpan (s.storeAt b v a) b vs (a + 1)

/-- `readRange` of a bank (R53): the span wholly in bounds, or OutOfRange; a span of length 0 is refused (U6). -/
def State.bankReadRange (s : State) (b : Bank) (a : Addr) (len : Nat) : Host.Outcome (Access (List Byte)) Fault Refusal :=
  if len = 0 then .refused .emptyRange
  else if b.ownsSpan a.toNat len then .next (s.readSpan b len a)
  else .next (.failed .outOfRange a s)

/-- `writeRange` of a bank (R55): bounds of the whole span, then permission, then all bytes; a span of length 0 is refused (U6). -/
def State.bankWriteRange (s : State) (b : Bank) (vs : List Byte) (a : Addr) : Host.Outcome (Access Unit) Fault Refusal :=
  if vs = [] then .refused .emptyRange
  else if b.ownsSpan a.toNat vs.length then
    match b.perm with
    | .readOnly  => .next (.failed .permissionDenied a s)
    | .readWrite => .next (.ok () (s.storeSpan b vs a))
  else .next (.failed .outOfRange a s)

/-! ### The address space -/

/-- The bank that owns an address, or none: the address is unmapped (R60, R62). -/
def ownerOf (banks : List Bank) (a : Addr) : Option Bank := banks.find? (fun b => b.owns a.toNat)

/-- `MemRead` (R62): the one path of data reads and of instruction fetch (R73). -/
def State.memRead (s : State) (a : Addr) : Access Byte :=
  match ownerOf s.banks a with
  | none   => .failed .unmappedAddress a s
  | some b => s.bankRead b a

/-- `MemWrite` (R63): lookup, then the bank's own checks. -/
def State.memWrite (s : State) (a : Addr) (v : Byte) : Access Unit :=
  match ownerOf s.banks a with
  | none   => .failed .unmappedAddress a s
  | some b => s.bankWrite b v a

/-! ### Taking a failure, completing a step, reset -/

/-- `raise K(info)` (R228, R229): the fault latch records the kind, the address or opcode and the pc of the failing instruction;
nothing else of the core changes. There is no handler: the core has no further step until reset (R132). -/
def State.raise (s : State) (k : FailureKind) (info : Addr) : State :=
  { s with latch := ⟨true, k, info, s.pc⟩ }

/-- A completed step advances pc by the length, modulo 65536, and the cycle counter by the cost (R29, R126, R129). -/
def State.complete (s : State) (len cost : Nat) : State :=
  { s with pc := s.pc + BitVec.ofNat 16 len, cyc := s.cyc + cost }

/-- The end of a step (R127): completed, or failed with the failure taken. Either is a next state. -/
def settle (len cost : Nat) : Access Unit → Host.Outcome State Fault Refusal
  | .ok _ s          => .next (s.complete len cost)
  | .failed k info s => .next (s.raise k info)

/-- The host's `reset` (R250), the only way on after a failure (R233): registers and bank contents stay. -/
def State.hostReset (s : State) : State :=
  { s with pc := s.resetPc, latch := Latch.clear, cyc := 0 }

/-- The number of a failure kind (R227). -/
def FailureKind.code : FailureKind → Nat
  | .noFailure        => 0
  | .outOfRange       => 1
  | .permissionDenied => 2
  | .unmappedAddress  => 3
  | .overlapError     => 4
  | .duplicateOpcode  => 5
  | .undefinedOpcode  => 6
  | .badBank          => 7

end Sys2Proof.Machine
end

