-- ==== Sys2Proof/Machine/Operands.lean ====
section
/-! DEFINITION. The addressing-mode resolver: the eight primitives of the Execution Context at their full generality (R140 to
R148, R151), and the effective addresses of R150. The operand bytes `n` and `nn` have been fetched before (R149). -/
namespace Sys2Proof.Machine

/-- The register an operand code names (R92). -/
def opReg : OpReg → Reg
  | .b => .b
  | .c => .c
  | .d => .d
  | .e => .e
  | .h => .h
  | .l => .l
  | .a => .a

/-- The extended register that addresses memory in a load or store of A. -/
def accPair : AccPair → ExtReg
  | .bc => .bc
  | .de => .de

/-- The effective address of port-style addressing: the base plus the register's unsigned value, modulo 65536 (R144). -/
def State.portAddr (s : State) (o : Reg) (base : Addr) : Addr := base + BitVec.ofNat 16 (s.get o).toNat

/-- `loadFromRegister(source, destination)` (R141). -/
def State.loadFromRegister (s : State) (src dst : Reg) : Access Unit := .ok () (s.set dst (s.get src))

/-- `loadFromAddress(destination, pair)` (R142): the address is formed before the destination is written. -/
def State.loadFromAddress (s : State) (dst : Reg) (p : ExtReg) : Access Unit :=
  (s.memRead (s.getExt p)).andThen fun v t => .ok () (t.set dst v)

/-- `loadFromAddress(destination)`, the absolute read (R143). -/
def State.loadFromAbsolute (s : State) (dst : Reg) (nn : Addr) : Access Unit :=
  (s.memRead nn).andThen fun v t => .ok () (t.set dst v)

/-- `loadFromAddress(destination, offset, base)`, the port read (R144). -/
def State.loadFromPort (s : State) (dst o : Reg) (base : Addr) : Access Unit :=
  (s.memRead (s.portAddr o base)).andThen fun v t => .ok () (t.set dst v)

/-- `loadFromValue(destination)` (R145). -/
def State.loadFromValue (s : State) (dst : Reg) (n : Byte) : Access Unit := .ok () (s.set dst n)

/-- `putToAddress(source, pair)` (R146). -/
def State.putToAddress (s : State) (src : Reg) (p : ExtReg) : Access Unit := s.memWrite (s.getExt p) (s.get src)

/-- `putToAddress(source)`, the absolute write (R147). -/
def State.putToAbsolute (s : State) (src : Reg) (nn : Addr) : Access Unit := s.memWrite nn (s.get src)

/-- `putToAddress(source, offset, base)`, the port write (R148). -/
def State.putToPort (s : State) (src o : Reg) (base : Addr) : Access Unit := s.memWrite (s.portAddr o base) (s.get src)

end Sys2Proof.Machine
end

