-- ==== Sys2Proof/Machine/Flags.lean ====
section
/-! DEFINITION. The 8-bit ALU: results and flags (R190 to R206; the spec's decisions D4 and D5). -/
namespace Sys2Proof.Machine

/-- What an ALU function answers: the 8-bit result and the four flags. -/
structure AluResult where
  r : Byte
  z : Bool
  n : Bool
  h : Bool
  c : Bool
deriving DecidableEq, Repr

/-- F as an ALU instruction writes it, whole: `Z*128 + N*64 + H*32 + C*16`, bits 3 to 0 zero (R30, R192). -/
def AluResult.flags (x : AluResult) : Byte :=
  BitVec.ofNat 8 (x.z.toNat * 128 + x.n.toNat * 64 + x.h.toNat * 32 + x.c.toNat * 16)

/-- The carry flag, bit 4 of F (R30). -/
def State.carry (s : State) : Bool := (s.get .f).getLsbD 4

/-- The addition function (R193). -/
def add8 (a v : Byte) (c : Bool) : AluResult :=
  let sum := a.toNat + v.toNat + c.toNat
  { r := BitVec.ofNat 8 sum
    z := decide (sum % 256 = 0)
    n := false
    h := decide (a.toNat % 16 + v.toNat % 16 + c.toNat > 15)
    c := decide (sum > 255) }

/-- The subtraction function (R194); C is a borrow flag. -/
def sub8 (a v : Byte) (c : Bool) : AluResult :=
  let r := a - v - BitVec.ofNat 8 c.toNat
  { r := r
    z := decide (r = 0)
    n := true
    h := decide (a.toNat % 16 < v.toNat % 16 + c.toNat)
    c := decide (a.toNat < v.toNat + c.toNat) }

/-- Bitwise and: H set, N and C clear (R199). -/
def and8 (a v : Byte) : AluResult := ⟨a &&& v, decide (a &&& v = 0), false, true, false⟩

/-- Bitwise exclusive or: N, H and C clear (R200). -/
def xor8 (a v : Byte) : AluResult := ⟨a ^^^ v, decide (a ^^^ v = 0), false, false, false⟩

/-- Bitwise or: N, H and C clear (R201). -/
def or8 (a v : Byte) : AluResult := ⟨a ||| v, decide (a ||| v = 0), false, false, false⟩

/-- Increment; the carry is the old one (R203). -/
def inc8 (v : Byte) (carry : Bool) : AluResult :=
  ⟨v + 1, decide (v + 1 = 0), false, decide (v.toNat % 16 = 15), carry⟩

/-- Decrement; the carry is the old one (R205). -/
def dec8 (v : Byte) (carry : Bool) : AluResult :=
  ⟨v - 1, decide (v - 1 = 0), true, decide (v.toNat % 16 = 0), carry⟩

/-- The result into A and the flags into F. -/
def State.putAcc (s : State) (x : AluResult) : State := (s.set .a x.r).set .f x.flags

/-- `ADD` of a right operand (R195). -/
def State.addAcc (s : State) (v : Byte) : State := s.putAcc (add8 (s.get .a) v false)

/-- `ADC` of a right operand (R196). -/
def State.adcAcc (s : State) (v : Byte) : State := s.putAcc (add8 (s.get .a) v s.carry)

/-- `SUB` of a right operand (R197). -/
def State.subAcc (s : State) (v : Byte) : State := s.putAcc (sub8 (s.get .a) v false)

/-- `SBC` of a right operand (R198). -/
def State.sbcAcc (s : State) (v : Byte) : State := s.putAcc (sub8 (s.get .a) v s.carry)

/-- `AND` of a right operand (R199). -/
def State.andAcc (s : State) (v : Byte) : State := s.putAcc (and8 (s.get .a) v)

/-- `XOR` of a right operand (R200). -/
def State.xorAcc (s : State) (v : Byte) : State := s.putAcc (xor8 (s.get .a) v)

/-- `OR` of a right operand (R201). -/
def State.orAcc (s : State) (v : Byte) : State := s.putAcc (or8 (s.get .a) v)

/-- `CP` of a right operand (R202): the result is discarded, F alone is written. -/
def State.cpAcc (s : State) (v : Byte) : State := s.set .f (sub8 (s.get .a) v false).flags

/-- The register form of an accumulator operation (R191). -/
def State.aluReg (s : State) (f : State → Byte → State) (r : Reg) : Access Unit := .ok () (f s (s.get r))

/-- The `(HL)` form of an accumulator operation (R191). -/
def State.aluIndHL (s : State) (f : State → Byte → State) : Access Unit :=
  (s.memRead (s.getExt .hl)).andThen fun v t => .ok () (f t v)

/-- The immediate form of an accumulator operation (R191). -/
def State.aluImm (s : State) (f : State → Byte → State) (n : Byte) : Access Unit := .ok () (f s n)

/-- `INC r` (R203). -/
def State.incReg (s : State) (r : Reg) : Access Unit :=
  let x := inc8 (s.get r) s.carry
  .ok () ((s.set r x.r).set .f x.flags)

/-- `DEC r` (R205). -/
def State.decReg (s : State) (r : Reg) : Access Unit :=
  let x := dec8 (s.get r) s.carry
  .ok () ((s.set r x.r).set .f x.flags)

/-- `INC (HL)`: one read, then one write, at the same address (R204). -/
def State.incIndHL (s : State) : Access Unit :=
  (s.memRead (s.getExt .hl)).andThen fun v t =>
    let x := inc8 v s.carry
    (t.memWrite (s.getExt .hl) x.r).andThen fun _ u => .ok () (u.set .f x.flags)

/-- `DEC (HL)`: one read, then one write, at the same address (R206). -/
def State.decIndHL (s : State) : Access Unit :=
  (s.memRead (s.getExt .hl)).andThen fun v t =>
    let x := dec8 v s.carry
    (t.memWrite (s.getExt .hl) x.r).andThen fun _ u => .ok () (u.set .f x.flags)

end Sys2Proof.Machine
end

