-- ==== Sys2Proof/Machine/Alu.lean ====
section
/-! DEFINITION. The accumulator operations of the 8-bit ALU (R190 to R202; the spec's decision D4). -/
namespace Sys2Proof.Machine

/-- `ADD A,B` (R195). -/
def execAddAB (s : State) : Host.Outcome State Fault Refusal :=
  settle 1 4 (s.aluReg State.addAcc .b)

/-- `ADD A,C` (R195). -/
def execAddAC (s : State) : Host.Outcome State Fault Refusal :=
  settle 1 4 (s.aluReg State.addAcc .c)

/-- `ADD A,D` (R195). -/
def execAddAD (s : State) : Host.Outcome State Fault Refusal :=
  settle 1 4 (s.aluReg State.addAcc .d)

/-- `ADD A,E` (R195). -/
def execAddAE (s : State) : Host.Outcome State Fault Refusal :=
  settle 1 4 (s.aluReg State.addAcc .e)

/-- `ADD A,H` (R195). -/
def execAddAH (s : State) : Host.Outcome State Fault Refusal :=
  settle 1 4 (s.aluReg State.addAcc .h)

/-- `ADD A,L` (R195). -/
def execAddAL (s : State) : Host.Outcome State Fault Refusal :=
  settle 1 4 (s.aluReg State.addAcc .l)

/-- `ADD A,(HL)` (R195). -/
def execAddAIndHL (s : State) : Host.Outcome State Fault Refusal :=
  settle 1 8 (s.aluIndHL State.addAcc)

/-- `ADD A,A` (R195). -/
def execAddAA (s : State) : Host.Outcome State Fault Refusal :=
  settle 1 4 (s.aluReg State.addAcc .a)

/-- `ADC A,B` (R196). -/
def execAdcAB (s : State) : Host.Outcome State Fault Refusal :=
  settle 1 4 (s.aluReg State.adcAcc .b)

/-- `ADC A,C` (R196). -/
def execAdcAC (s : State) : Host.Outcome State Fault Refusal :=
  settle 1 4 (s.aluReg State.adcAcc .c)

/-- `ADC A,D` (R196). -/
def execAdcAD (s : State) : Host.Outcome State Fault Refusal :=
  settle 1 4 (s.aluReg State.adcAcc .d)

/-- `ADC A,E` (R196). -/
def execAdcAE (s : State) : Host.Outcome State Fault Refusal :=
  settle 1 4 (s.aluReg State.adcAcc .e)

/-- `ADC A,H` (R196). -/
def execAdcAH (s : State) : Host.Outcome State Fault Refusal :=
  settle 1 4 (s.aluReg State.adcAcc .h)

/-- `ADC A,L` (R196). -/
def execAdcAL (s : State) : Host.Outcome State Fault Refusal :=
  settle 1 4 (s.aluReg State.adcAcc .l)

/-- `ADC A,(HL)` (R196). -/
def execAdcAIndHL (s : State) : Host.Outcome State Fault Refusal :=
  settle 1 8 (s.aluIndHL State.adcAcc)

/-- `ADC A,A` (R196). -/
def execAdcAA (s : State) : Host.Outcome State Fault Refusal :=
  settle 1 4 (s.aluReg State.adcAcc .a)

/-- `SUB B` (R197). -/
def execSubB (s : State) : Host.Outcome State Fault Refusal :=
  settle 1 4 (s.aluReg State.subAcc .b)

/-- `SUB C` (R197). -/
def execSubC (s : State) : Host.Outcome State Fault Refusal :=
  settle 1 4 (s.aluReg State.subAcc .c)

/-- `SUB D` (R197). -/
def execSubD (s : State) : Host.Outcome State Fault Refusal :=
  settle 1 4 (s.aluReg State.subAcc .d)

/-- `SUB E` (R197). -/
def execSubE (s : State) : Host.Outcome State Fault Refusal :=
  settle 1 4 (s.aluReg State.subAcc .e)

/-- `SUB H` (R197). -/
def execSubH (s : State) : Host.Outcome State Fault Refusal :=
  settle 1 4 (s.aluReg State.subAcc .h)

/-- `SUB L` (R197). -/
def execSubL (s : State) : Host.Outcome State Fault Refusal :=
  settle 1 4 (s.aluReg State.subAcc .l)

/-- `SUB (HL)` (R197). -/
def execSubIndHL (s : State) : Host.Outcome State Fault Refusal :=
  settle 1 8 (s.aluIndHL State.subAcc)

/-- `SUB A` (R197). -/
def execSubA (s : State) : Host.Outcome State Fault Refusal :=
  settle 1 4 (s.aluReg State.subAcc .a)

/-- `SBC A,B` (R198). -/
def execSbcAB (s : State) : Host.Outcome State Fault Refusal :=
  settle 1 4 (s.aluReg State.sbcAcc .b)

/-- `SBC A,C` (R198). -/
def execSbcAC (s : State) : Host.Outcome State Fault Refusal :=
  settle 1 4 (s.aluReg State.sbcAcc .c)

/-- `SBC A,D` (R198). -/
def execSbcAD (s : State) : Host.Outcome State Fault Refusal :=
  settle 1 4 (s.aluReg State.sbcAcc .d)

/-- `SBC A,E` (R198). -/
def execSbcAE (s : State) : Host.Outcome State Fault Refusal :=
  settle 1 4 (s.aluReg State.sbcAcc .e)

/-- `SBC A,H` (R198). -/
def execSbcAH (s : State) : Host.Outcome State Fault Refusal :=
  settle 1 4 (s.aluReg State.sbcAcc .h)

/-- `SBC A,L` (R198). -/
def execSbcAL (s : State) : Host.Outcome State Fault Refusal :=
  settle 1 4 (s.aluReg State.sbcAcc .l)

/-- `SBC A,(HL)` (R198). -/
def execSbcAIndHL (s : State) : Host.Outcome State Fault Refusal :=
  settle 1 8 (s.aluIndHL State.sbcAcc)

/-- `SBC A,A` (R198). -/
def execSbcAA (s : State) : Host.Outcome State Fault Refusal :=
  settle 1 4 (s.aluReg State.sbcAcc .a)

/-- `AND B` (R199). -/
def execAndB (s : State) : Host.Outcome State Fault Refusal :=
  settle 1 4 (s.aluReg State.andAcc .b)

/-- `AND C` (R199). -/
def execAndC (s : State) : Host.Outcome State Fault Refusal :=
  settle 1 4 (s.aluReg State.andAcc .c)

/-- `AND D` (R199). -/
def execAndD (s : State) : Host.Outcome State Fault Refusal :=
  settle 1 4 (s.aluReg State.andAcc .d)

/-- `AND E` (R199). -/
def execAndE (s : State) : Host.Outcome State Fault Refusal :=
  settle 1 4 (s.aluReg State.andAcc .e)

/-- `AND H` (R199). -/
def execAndH (s : State) : Host.Outcome State Fault Refusal :=
  settle 1 4 (s.aluReg State.andAcc .h)

/-- `AND L` (R199). -/
def execAndL (s : State) : Host.Outcome State Fault Refusal :=
  settle 1 4 (s.aluReg State.andAcc .l)

/-- `AND (HL)` (R199). -/
def execAndIndHL (s : State) : Host.Outcome State Fault Refusal :=
  settle 1 8 (s.aluIndHL State.andAcc)

/-- `AND A` (R199). -/
def execAndA (s : State) : Host.Outcome State Fault Refusal :=
  settle 1 4 (s.aluReg State.andAcc .a)

/-- `XOR B` (R200). -/
def execXorB (s : State) : Host.Outcome State Fault Refusal :=
  settle 1 4 (s.aluReg State.xorAcc .b)

/-- `XOR C` (R200). -/
def execXorC (s : State) : Host.Outcome State Fault Refusal :=
  settle 1 4 (s.aluReg State.xorAcc .c)

/-- `XOR D` (R200). -/
def execXorD (s : State) : Host.Outcome State Fault Refusal :=
  settle 1 4 (s.aluReg State.xorAcc .d)

/-- `XOR E` (R200). -/
def execXorE (s : State) : Host.Outcome State Fault Refusal :=
  settle 1 4 (s.aluReg State.xorAcc .e)

/-- `XOR H` (R200). -/
def execXorH (s : State) : Host.Outcome State Fault Refusal :=
  settle 1 4 (s.aluReg State.xorAcc .h)

/-- `XOR L` (R200). -/
def execXorL (s : State) : Host.Outcome State Fault Refusal :=
  settle 1 4 (s.aluReg State.xorAcc .l)

/-- `XOR (HL)` (R200). -/
def execXorIndHL (s : State) : Host.Outcome State Fault Refusal :=
  settle 1 8 (s.aluIndHL State.xorAcc)

/-- `XOR A` (R200). -/
def execXorA (s : State) : Host.Outcome State Fault Refusal :=
  settle 1 4 (s.aluReg State.xorAcc .a)

/-- `OR B` (R201). -/
def execOrB (s : State) : Host.Outcome State Fault Refusal :=
  settle 1 4 (s.aluReg State.orAcc .b)

/-- `OR C` (R201). -/
def execOrC (s : State) : Host.Outcome State Fault Refusal :=
  settle 1 4 (s.aluReg State.orAcc .c)

/-- `OR D` (R201). -/
def execOrD (s : State) : Host.Outcome State Fault Refusal :=
  settle 1 4 (s.aluReg State.orAcc .d)

/-- `OR E` (R201). -/
def execOrE (s : State) : Host.Outcome State Fault Refusal :=
  settle 1 4 (s.aluReg State.orAcc .e)

/-- `OR H` (R201). -/
def execOrH (s : State) : Host.Outcome State Fault Refusal :=
  settle 1 4 (s.aluReg State.orAcc .h)

/-- `OR L` (R201). -/
def execOrL (s : State) : Host.Outcome State Fault Refusal :=
  settle 1 4 (s.aluReg State.orAcc .l)

/-- `OR (HL)` (R201). -/
def execOrIndHL (s : State) : Host.Outcome State Fault Refusal :=
  settle 1 8 (s.aluIndHL State.orAcc)

/-- `OR A` (R201). -/
def execOrA (s : State) : Host.Outcome State Fault Refusal :=
  settle 1 4 (s.aluReg State.orAcc .a)

/-- `CP B` (R202). -/
def execCpB (s : State) : Host.Outcome State Fault Refusal :=
  settle 1 4 (s.aluReg State.cpAcc .b)

/-- `CP C` (R202). -/
def execCpC (s : State) : Host.Outcome State Fault Refusal :=
  settle 1 4 (s.aluReg State.cpAcc .c)

/-- `CP D` (R202). -/
def execCpD (s : State) : Host.Outcome State Fault Refusal :=
  settle 1 4 (s.aluReg State.cpAcc .d)

/-- `CP E` (R202). -/
def execCpE (s : State) : Host.Outcome State Fault Refusal :=
  settle 1 4 (s.aluReg State.cpAcc .e)

/-- `CP H` (R202). -/
def execCpH (s : State) : Host.Outcome State Fault Refusal :=
  settle 1 4 (s.aluReg State.cpAcc .h)

/-- `CP L` (R202). -/
def execCpL (s : State) : Host.Outcome State Fault Refusal :=
  settle 1 4 (s.aluReg State.cpAcc .l)

/-- `CP (HL)` (R202). -/
def execCpIndHL (s : State) : Host.Outcome State Fault Refusal :=
  settle 1 8 (s.aluIndHL State.cpAcc)

/-- `CP A` (R202). -/
def execCpA (s : State) : Host.Outcome State Fault Refusal :=
  settle 1 4 (s.aluReg State.cpAcc .a)

/-- `ADD A,n` (R195). -/
def execAddAImm (n : Byte) (s : State) : Host.Outcome State Fault Refusal :=
  settle 2 8 (s.aluImm State.addAcc n)

/-- `ADC A,n` (R196). -/
def execAdcAImm (n : Byte) (s : State) : Host.Outcome State Fault Refusal :=
  settle 2 8 (s.aluImm State.adcAcc n)

/-- `SUB n` (R197). -/
def execSubImm (n : Byte) (s : State) : Host.Outcome State Fault Refusal :=
  settle 2 8 (s.aluImm State.subAcc n)

/-- `SBC A,n` (R198). -/
def execSbcAImm (n : Byte) (s : State) : Host.Outcome State Fault Refusal :=
  settle 2 8 (s.aluImm State.sbcAcc n)

/-- `AND n` (R199). -/
def execAndImm (n : Byte) (s : State) : Host.Outcome State Fault Refusal :=
  settle 2 8 (s.aluImm State.andAcc n)

/-- `XOR n` (R200). -/
def execXorImm (n : Byte) (s : State) : Host.Outcome State Fault Refusal :=
  settle 2 8 (s.aluImm State.xorAcc n)

/-- `OR n` (R201). -/
def execOrImm (n : Byte) (s : State) : Host.Outcome State Fault Refusal :=
  settle 2 8 (s.aluImm State.orAcc n)

/-- `CP n` (R202). -/
def execCpImm (n : Byte) (s : State) : Host.Outcome State Fault Refusal :=
  settle 2 8 (s.aluImm State.cpAcc n)

end Sys2Proof.Machine
end

