-- ==== Sys2Proof/Machine/IncDec.lean ====
section
/-! DEFINITION. Increment and decrement of a register or of the byte at HL (R203 to R206; the spec's decision D4). -/
namespace Sys2Proof.Machine

/-- `INC B` (R203). -/
def execIncB (s : State) : Host.Outcome State Fault Refusal :=
  settle 1 4 (s.incReg .b)

/-- `DEC B` (R205). -/
def execDecB (s : State) : Host.Outcome State Fault Refusal :=
  settle 1 4 (s.decReg .b)

/-- `INC C` (R203). -/
def execIncC (s : State) : Host.Outcome State Fault Refusal :=
  settle 1 4 (s.incReg .c)

/-- `DEC C` (R205). -/
def execDecC (s : State) : Host.Outcome State Fault Refusal :=
  settle 1 4 (s.decReg .c)

/-- `INC D` (R203). -/
def execIncD (s : State) : Host.Outcome State Fault Refusal :=
  settle 1 4 (s.incReg .d)

/-- `DEC D` (R205). -/
def execDecD (s : State) : Host.Outcome State Fault Refusal :=
  settle 1 4 (s.decReg .d)

/-- `INC E` (R203). -/
def execIncE (s : State) : Host.Outcome State Fault Refusal :=
  settle 1 4 (s.incReg .e)

/-- `DEC E` (R205). -/
def execDecE (s : State) : Host.Outcome State Fault Refusal :=
  settle 1 4 (s.decReg .e)

/-- `INC H` (R203). -/
def execIncH (s : State) : Host.Outcome State Fault Refusal :=
  settle 1 4 (s.incReg .h)

/-- `DEC H` (R205). -/
def execDecH (s : State) : Host.Outcome State Fault Refusal :=
  settle 1 4 (s.decReg .h)

/-- `INC L` (R203). -/
def execIncL (s : State) : Host.Outcome State Fault Refusal :=
  settle 1 4 (s.incReg .l)

/-- `DEC L` (R205). -/
def execDecL (s : State) : Host.Outcome State Fault Refusal :=
  settle 1 4 (s.decReg .l)

/-- `INC (HL)` (R204). -/
def execIncIndHL (s : State) : Host.Outcome State Fault Refusal :=
  settle 1 12 (s.incIndHL)

/-- `DEC (HL)` (R206). -/
def execDecIndHL (s : State) : Host.Outcome State Fault Refusal :=
  settle 1 12 (s.decIndHL)

/-- `INC A` (R203). -/
def execIncA (s : State) : Host.Outcome State Fault Refusal :=
  settle 1 4 (s.incReg .a)

/-- `DEC A` (R205). -/
def execDecA (s : State) : Host.Outcome State Fault Refusal :=
  settle 1 4 (s.decReg .a)

end Sys2Proof.Machine
end

