-- ==== Sys2Proof/Machine/LoadMemory.lean ====
section
/-! DEFINITION. Loads from memory and stores to memory (R170 to R180). -/
namespace Sys2Proof.Machine

/-- `LD (BC),A` (R177). -/
def execLdIndBCA (s : State) : Host.Outcome State Fault Refusal :=
  settle 1 8 (s.putToAddress .a .bc)

/-- `LD A,(BC)` (R172). -/
def execLdAIndBC (s : State) : Host.Outcome State Fault Refusal :=
  settle 1 8 (s.loadFromAddress .a .bc)

/-- `LD (DE),A` (R178). -/
def execLdIndDEA (s : State) : Host.Outcome State Fault Refusal :=
  settle 1 8 (s.putToAddress .a .de)

/-- `LD A,(DE)` (R173). -/
def execLdAIndDE (s : State) : Host.Outcome State Fault Refusal :=
  settle 1 8 (s.loadFromAddress .a .de)

/-- `LD B,(HL)` (R171). -/
def execLdBIndHL (s : State) : Host.Outcome State Fault Refusal :=
  settle 1 8 (s.loadFromAddress .b .hl)

/-- `LD C,(HL)` (R171). -/
def execLdCIndHL (s : State) : Host.Outcome State Fault Refusal :=
  settle 1 8 (s.loadFromAddress .c .hl)

/-- `LD D,(HL)` (R171). -/
def execLdDIndHL (s : State) : Host.Outcome State Fault Refusal :=
  settle 1 8 (s.loadFromAddress .d .hl)

/-- `LD E,(HL)` (R171). -/
def execLdEIndHL (s : State) : Host.Outcome State Fault Refusal :=
  settle 1 8 (s.loadFromAddress .e .hl)

/-- `LD H,(HL)` (R171). -/
def execLdHIndHL (s : State) : Host.Outcome State Fault Refusal :=
  settle 1 8 (s.loadFromAddress .h .hl)

/-- `LD L,(HL)` (R171). -/
def execLdLIndHL (s : State) : Host.Outcome State Fault Refusal :=
  settle 1 8 (s.loadFromAddress .l .hl)

/-- `LD (HL),B` (R176). -/
def execLdIndHLB (s : State) : Host.Outcome State Fault Refusal :=
  settle 1 8 (s.putToAddress .b .hl)

/-- `LD (HL),C` (R176). -/
def execLdIndHLC (s : State) : Host.Outcome State Fault Refusal :=
  settle 1 8 (s.putToAddress .c .hl)

/-- `LD (HL),D` (R176). -/
def execLdIndHLD (s : State) : Host.Outcome State Fault Refusal :=
  settle 1 8 (s.putToAddress .d .hl)

/-- `LD (HL),E` (R176). -/
def execLdIndHLE (s : State) : Host.Outcome State Fault Refusal :=
  settle 1 8 (s.putToAddress .e .hl)

/-- `LD (HL),H` (R176). -/
def execLdIndHLH (s : State) : Host.Outcome State Fault Refusal :=
  settle 1 8 (s.putToAddress .h .hl)

/-- `LD (HL),L` (R176). -/
def execLdIndHLL (s : State) : Host.Outcome State Fault Refusal :=
  settle 1 8 (s.putToAddress .l .hl)

/-- `LD (HL),A` (R176). -/
def execLdIndHLA (s : State) : Host.Outcome State Fault Refusal :=
  settle 1 8 (s.putToAddress .a .hl)

/-- `LD A,(HL)` (R171). -/
def execLdAIndHL (s : State) : Host.Outcome State Fault Refusal :=
  settle 1 8 (s.loadFromAddress .a .hl)

/-- `LD (C),A` (R180). -/
def execLdPortCA (s : State) : Host.Outcome State Fault Refusal :=
  settle 1 8 (s.putToPort .a .c Config.portBase)

/-- `LD (nn),A` (R179). -/
def execLdAbsA (nn : Addr) (s : State) : Host.Outcome State Fault Refusal :=
  settle 3 16 (s.putToAbsolute .a nn)

/-- `LD A,(C)` (R175). -/
def execLdAPortC (s : State) : Host.Outcome State Fault Refusal :=
  settle 1 8 (s.loadFromPort .a .c Config.portBase)

/-- `LD A,(nn)` (R174). -/
def execLdAAbs (nn : Addr) (s : State) : Host.Outcome State Fault Refusal :=
  settle 3 16 (s.loadFromAbsolute .a nn)

end Sys2Proof.Machine
end

