-- ==== Sys2Proof/Machine/LoadRegister.lean ====
section
/-! DEFINITION. Loads into a register from a register or an immediate (R160 to R162). -/
namespace Sys2Proof.Machine

/-- `LD B,n` (R162). -/
def execLdBImm (n : Byte) (s : State) : Host.Outcome State Fault Refusal :=
  settle 2 8 (s.loadFromValue .b n)

/-- `LD C,n` (R162). -/
def execLdCImm (n : Byte) (s : State) : Host.Outcome State Fault Refusal :=
  settle 2 8 (s.loadFromValue .c n)

/-- `LD D,n` (R162). -/
def execLdDImm (n : Byte) (s : State) : Host.Outcome State Fault Refusal :=
  settle 2 8 (s.loadFromValue .d n)

/-- `LD E,n` (R162). -/
def execLdEImm (n : Byte) (s : State) : Host.Outcome State Fault Refusal :=
  settle 2 8 (s.loadFromValue .e n)

/-- `LD H,n` (R162). -/
def execLdHImm (n : Byte) (s : State) : Host.Outcome State Fault Refusal :=
  settle 2 8 (s.loadFromValue .h n)

/-- `LD L,n` (R162). -/
def execLdLImm (n : Byte) (s : State) : Host.Outcome State Fault Refusal :=
  settle 2 8 (s.loadFromValue .l n)

/-- `LD A,n` (R162). -/
def execLdAImm (n : Byte) (s : State) : Host.Outcome State Fault Refusal :=
  settle 2 8 (s.loadFromValue .a n)

/-- `LD B,B` (R161). -/
def execLdBB (s : State) : Host.Outcome State Fault Refusal :=
  settle 1 4 (s.loadFromRegister .b .b)

/-- `LD B,C` (R161). -/
def execLdBC (s : State) : Host.Outcome State Fault Refusal :=
  settle 1 4 (s.loadFromRegister .c .b)

/-- `LD B,D` (R161). -/
def execLdBD (s : State) : Host.Outcome State Fault Refusal :=
  settle 1 4 (s.loadFromRegister .d .b)

/-- `LD B,E` (R161). -/
def execLdBE (s : State) : Host.Outcome State Fault Refusal :=
  settle 1 4 (s.loadFromRegister .e .b)

/-- `LD B,H` (R161). -/
def execLdBH (s : State) : Host.Outcome State Fault Refusal :=
  settle 1 4 (s.loadFromRegister .h .b)

/-- `LD B,L` (R161). -/
def execLdBL (s : State) : Host.Outcome State Fault Refusal :=
  settle 1 4 (s.loadFromRegister .l .b)

/-- `LD B,A` (R161). -/
def execLdBA (s : State) : Host.Outcome State Fault Refusal :=
  settle 1 4 (s.loadFromRegister .a .b)

/-- `LD C,B` (R161). -/
def execLdCB (s : State) : Host.Outcome State Fault Refusal :=
  settle 1 4 (s.loadFromRegister .b .c)

/-- `LD C,C` (R161). -/
def execLdCC (s : State) : Host.Outcome State Fault Refusal :=
  settle 1 4 (s.loadFromRegister .c .c)

/-- `LD C,D` (R161). -/
def execLdCD (s : State) : Host.Outcome State Fault Refusal :=
  settle 1 4 (s.loadFromRegister .d .c)

/-- `LD C,E` (R161). -/
def execLdCE (s : State) : Host.Outcome State Fault Refusal :=
  settle 1 4 (s.loadFromRegister .e .c)

/-- `LD C,H` (R161). -/
def execLdCH (s : State) : Host.Outcome State Fault Refusal :=
  settle 1 4 (s.loadFromRegister .h .c)

/-- `LD C,L` (R161). -/
def execLdCL (s : State) : Host.Outcome State Fault Refusal :=
  settle 1 4 (s.loadFromRegister .l .c)

/-- `LD C,A` (R161). -/
def execLdCA (s : State) : Host.Outcome State Fault Refusal :=
  settle 1 4 (s.loadFromRegister .a .c)

/-- `LD D,B` (R161). -/
def execLdDB (s : State) : Host.Outcome State Fault Refusal :=
  settle 1 4 (s.loadFromRegister .b .d)

/-- `LD D,C` (R161). -/
def execLdDC (s : State) : Host.Outcome State Fault Refusal :=
  settle 1 4 (s.loadFromRegister .c .d)

/-- `LD D,D` (R161). -/
def execLdDD (s : State) : Host.Outcome State Fault Refusal :=
  settle 1 4 (s.loadFromRegister .d .d)

/-- `LD D,E` (R161). -/
def execLdDE (s : State) : Host.Outcome State Fault Refusal :=
  settle 1 4 (s.loadFromRegister .e .d)

/-- `LD D,H` (R161). -/
def execLdDH (s : State) : Host.Outcome State Fault Refusal :=
  settle 1 4 (s.loadFromRegister .h .d)

/-- `LD D,L` (R161). -/
def execLdDL (s : State) : Host.Outcome State Fault Refusal :=
  settle 1 4 (s.loadFromRegister .l .d)

/-- `LD D,A` (R161). -/
def execLdDA (s : State) : Host.Outcome State Fault Refusal :=
  settle 1 4 (s.loadFromRegister .a .d)

/-- `LD E,B` (R161). -/
def execLdEB (s : State) : Host.Outcome State Fault Refusal :=
  settle 1 4 (s.loadFromRegister .b .e)

/-- `LD E,C` (R161). -/
def execLdEC (s : State) : Host.Outcome State Fault Refusal :=
  settle 1 4 (s.loadFromRegister .c .e)

/-- `LD E,D` (R161). -/
def execLdED (s : State) : Host.Outcome State Fault Refusal :=
  settle 1 4 (s.loadFromRegister .d .e)

/-- `LD E,E` (R161). -/
def execLdEE (s : State) : Host.Outcome State Fault Refusal :=
  settle 1 4 (s.loadFromRegister .e .e)

/-- `LD E,H` (R161). -/
def execLdEH (s : State) : Host.Outcome State Fault Refusal :=
  settle 1 4 (s.loadFromRegister .h .e)

/-- `LD E,L` (R161). -/
def execLdEL (s : State) : Host.Outcome State Fault Refusal :=
  settle 1 4 (s.loadFromRegister .l .e)

/-- `LD E,A` (R161). -/
def execLdEA (s : State) : Host.Outcome State Fault Refusal :=
  settle 1 4 (s.loadFromRegister .a .e)

/-- `LD H,B` (R161). -/
def execLdHB (s : State) : Host.Outcome State Fault Refusal :=
  settle 1 4 (s.loadFromRegister .b .h)

/-- `LD H,C` (R161). -/
def execLdHC (s : State) : Host.Outcome State Fault Refusal :=
  settle 1 4 (s.loadFromRegister .c .h)

/-- `LD H,D` (R161). -/
def execLdHD (s : State) : Host.Outcome State Fault Refusal :=
  settle 1 4 (s.loadFromRegister .d .h)

/-- `LD H,E` (R161). -/
def execLdHE (s : State) : Host.Outcome State Fault Refusal :=
  settle 1 4 (s.loadFromRegister .e .h)

/-- `LD H,H` (R161). -/
def execLdHH (s : State) : Host.Outcome State Fault Refusal :=
  settle 1 4 (s.loadFromRegister .h .h)

/-- `LD H,L` (R161). -/
def execLdHL (s : State) : Host.Outcome State Fault Refusal :=
  settle 1 4 (s.loadFromRegister .l .h)

/-- `LD H,A` (R161). -/
def execLdHA (s : State) : Host.Outcome State Fault Refusal :=
  settle 1 4 (s.loadFromRegister .a .h)

/-- `LD L,B` (R161). -/
def execLdLB (s : State) : Host.Outcome State Fault Refusal :=
  settle 1 4 (s.loadFromRegister .b .l)

/-- `LD L,C` (R161). -/
def execLdLC (s : State) : Host.Outcome State Fault Refusal :=
  settle 1 4 (s.loadFromRegister .c .l)

/-- `LD L,D` (R161). -/
def execLdLD (s : State) : Host.Outcome State Fault Refusal :=
  settle 1 4 (s.loadFromRegister .d .l)

/-- `LD L,E` (R161). -/
def execLdLE (s : State) : Host.Outcome State Fault Refusal :=
  settle 1 4 (s.loadFromRegister .e .l)

/-- `LD L,H` (R161). -/
def execLdLH (s : State) : Host.Outcome State Fault Refusal :=
  settle 1 4 (s.loadFromRegister .h .l)

/-- `LD L,L` (R161). -/
def execLdLL (s : State) : Host.Outcome State Fault Refusal :=
  settle 1 4 (s.loadFromRegister .l .l)

/-- `LD L,A` (R161). -/
def execLdLA (s : State) : Host.Outcome State Fault Refusal :=
  settle 1 4 (s.loadFromRegister .a .l)

/-- `LD A,B` (R161). -/
def execLdAB (s : State) : Host.Outcome State Fault Refusal :=
  settle 1 4 (s.loadFromRegister .b .a)

/-- `LD A,C` (R161). -/
def execLdAC (s : State) : Host.Outcome State Fault Refusal :=
  settle 1 4 (s.loadFromRegister .c .a)

/-- `LD A,D` (R161). -/
def execLdAD (s : State) : Host.Outcome State Fault Refusal :=
  settle 1 4 (s.loadFromRegister .d .a)

/-- `LD A,E` (R161). -/
def execLdAE (s : State) : Host.Outcome State Fault Refusal :=
  settle 1 4 (s.loadFromRegister .e .a)

/-- `LD A,H` (R161). -/
def execLdAH (s : State) : Host.Outcome State Fault Refusal :=
  settle 1 4 (s.loadFromRegister .h .a)

/-- `LD A,L` (R161). -/
def execLdAL (s : State) : Host.Outcome State Fault Refusal :=
  settle 1 4 (s.loadFromRegister .l .a)

/-- `LD A,A` (R161). -/
def execLdAA (s : State) : Host.Outcome State Fault Refusal :=
  settle 1 4 (s.loadFromRegister .a .a)

end Sys2Proof.Machine
end

