-- ==== Sys2Proof/Machine/Fetch.lean ====
section
/-! DEFINITION. Fetching an instruction's bytes through the address space (R73, R126, R149), and placing bytes where the next
fetch finds them. -/
namespace Sys2Proof.Machine

/-- The byte `k` after the opcode, at `(pc + k) mod 65536` (R149). -/
def State.fetchByte (s : State) (k : Nat) : Access Byte := s.memRead (s.pc + BitVec.ofNat 16 k)

/-- The fetch of one instruction (R80, R126): the opcode; if it has no entry, `UndefinedOpcode` and no operand byte is read (R131,
R226); then its operand bytes in ascending order, a 16-bit operand low byte first (R95). -/
def State.fetch (s : State) : Access Instr :=
  (s.fetchByte 0).andThen fun op t =>
    match lookupOpcode op with
    | none        => .failed .undefinedOpcode (BitVec.ofNat 16 op.toNat) t
    | some (.s i) => .ok i t
    | some (.i f) => (t.fetchByte 1).andThen fun n u => .ok (f n) u
    | some (.w f) => (t.fetchByte 1).andThen fun lo u => (u.fetchByte 2).andThen fun hi v => .ok (f (wordOf hi lo)) v

/-- Bytes placed at consecutive addresses modulo 65536, as a loader fills a bank (R58). -/
def State.placeBytes (s : State) : Addr → List Byte → State
  | _, []      => s
  | a, v :: vs => State.placeBytes { s with mem := Memory.write s.mem a.toNat v } (a + 1) vs

/-- The address belongs to a storage bank. -/
def storageOwned (banks : List Bank) (a : Addr) : Bool :=
  match ownerOf banks a with
  | some b => decide (b.kind = .storage)
  | none   => false

/-- The banks as they are, if the three bytes a fetch can reach lie in storage banks; else one storage bank over the whole space. -/
def banksForFetch (banks : List Bank) (a : Addr) : List Bank :=
  if storageOwned banks a && storageOwned banks (a + 1) && storageOwned banks (a + 2) then banks
  else [⟨0, 0x10000, .readWrite, .storage⟩]

/-- What a fetch needs and a state may lack: the latch clear, and storage banks under the bytes it can reach. -/
def State.readyToFetch (s : State) : State :=
  { s with
    latch := if s.latch.faulted then Latch.clear else s.latch
    banks := banksForFetch s.banks s.pc }

end Sys2Proof.Machine
end

