-- ==== Sys2Proof/Machine/Step.lean ====
section
/-! DEFINITION. The step (R126), and the placing of one instruction where the next step fetches it. -/
namespace Sys2Proof.Machine

/-- One fetch-decode-execute step. With the latch set the core has no step (R132). A failure at the fetch is taken as one in the
instruction is: a next state with the latch set (R228). -/
def step (s : State) : Host.Outcome State Fault Refusal :=
  if s.latch.faulted then .fault .coreFaulted
  else
    match s.fetch with
    | .ok i t          => exec i t
    | .failed k info t => .next (t.raise k info)

/-- The instruction of a table word placed at the program counter, its bits above `nbits` zero up to the longest instruction. The
core fetches at its pc alone, so nothing but the bytes changes, unless the state could not fetch them: then the latch is cleared
and a storage bank laid under them (log entry 6). -/
def State.withFetchWord (s : State) (nbits w : Nat) : State :=
  (s.readyToFetch).placeBytes s.pc (tableWordBytes nbits w)

end Sys2Proof.Machine
end

