-- ==== Sys2Proof/Machine/Driver.lean ====
section
/-! DEFINITION. What the host may do between steps (R236). No instruction does any of it, and `step` does none of it. -/
namespace Sys2Proof.Machine

/-- The host's actions (R236). A bank is named by its place in the bank list. -/
inductive HostAction where
  | step
  | setReg (r : Reg) (n : Nat)
  | setExt (p : ExtReg) (n : Nat)
  | readBank (k : Nat) (a : Addr)
  | writeBank (k : Nat) (v : Byte) (a : Addr)
  | readRange (k : Nat) (a : Addr) (len : Nat)
  | writeRange (k : Nat) (vs : List Byte) (a : Addr)
  | reset
deriving DecidableEq, Repr

/-- The state a direct bank access leaves. A failure is reported to the host that asked; the core's latch records only what fails
inside a step (R228). -/
def afterAccess {α : Type} : Access α → State
  | .ok _ s       => s
  | .failed _ _ s => s

/-- The state a direct range access leaves; a refused span leaves none. -/
def afterRange {α : Type} : Host.Outcome (Access α) Fault Refusal → Host.Outcome State Fault Refusal
  | .next x    => .next (afterAccess x)
  | .fault f   => .fault f
  | .refused r => .refused r

/-- One action of the host (R236). -/
def hostAct (x : HostAction) (s : State) : Host.Outcome State Fault Refusal :=
  match x with
  | .step       => Sys2Proof.Machine.step s
  | .setReg r n => .next (s.setNat r n)
  | .setExt p n => .next (s.setExtNat p n)
  | .readBank k a =>
    match s.banks[k]? with
    | some b => .next (afterAccess (s.bankRead b a))
    | none   => .refused .noSuchBank
  | .writeBank k v a =>
    match s.banks[k]? with
    | some b => .next (afterAccess (s.bankWrite b v a))
    | none   => .refused .noSuchBank
  | .readRange k a len =>
    match s.banks[k]? with
    | some b => afterRange (s.bankReadRange b a len)
    | none   => .refused .noSuchBank
  | .writeRange k vs a =>
    match s.banks[k]? with
    | some b => afterRange (s.bankWriteRange b vs a)
    | none   => .refused .noSuchBank
  | .reset      => .next s.hostReset

end Sys2Proof.Machine
end

