-- ==== Sys2Proof/WellFormed.lean ====
section
/-! DEFINITION. The checks a configuration must pass before a machine exists (R59, R61, R122, R231).

An `Instr` needs no check of its own: an immediate is a `Byte`, an absolute address an `Addr`, and the registers a row names are
part of its constructor, so no field of an instruction can be out of range (R92, R109). -/
namespace Sys2Proof

/-- A bank is not empty and lies wholly inside the 16-bit space (R59). -/
def Bank.wellFormed (b : Bank) : Bool :=
  decide (1 ≤ b.size) && decide (b.offset + b.size ≤ 0x10000)

/-- Two ranges intersect: some address lies in both (R61). -/
def Bank.overlaps (x y : Bank) : Bool :=
  decide (x.offset < y.offset + y.size) && decide (y.offset < x.offset + x.size)

/-- A list of banks as registration leaves it: each well-formed (R59), no two of them sharing an address (R60, R61). -/
def banksWellFormed : List Bank → Bool
  | []      => true
  | b :: bs => b.wellFormed && bs.all (fun x => !(x.overlaps b)) && banksWellFormed bs

/-- No opcode stands twice (R122). -/
def opcodesUnique : List Byte → Bool
  | []        => true
  | op :: ops => !(ops.contains op) && opcodesUnique ops

end Sys2Proof
end

