-- ==== Sys2Proof/Machine/Boot.lean ====
section
/-! DEFINITION. What happens before the first step (R252): building the dispatch table, registering the banks, loading them, reset.
A configuration that fails a check has no machine (R231). -/
namespace Sys2Proof.Machine

/-- The failures of a configuration, with what each records (R224, R225, R227); `outOfRange` is the loader's (R221). -/
inductive ConfigFailure where
  | badBank (b : Bank)
  | overlapError (new old : Bank)
  | duplicateOpcode (op : Byte)
  | outOfRange (a : Addr)
deriving DecidableEq, Repr

/-- The failure kind of a configuration failure, which gives it its code (R227). -/
def ConfigFailure.kind : ConfigFailure → FailureKind
  | .badBank _         => .badBank
  | .overlapError _ _  => .overlapError
  | .duplicateOpcode _ => .duplicateOpcode
  | .outOfRange _      => .outOfRange

/-- A stage of the configuration: its parts taken in list order, each on what the parts before it left; the first failure ends it
(R231). -/
def inOrder {α β : Type} (f : α → β → Except ConfigFailure α) : α → List β → Except ConfigFailure α
  | a, []      => .ok a
  | a, b :: bs =>
    match f a b with
    | .error e => .error e
    | .ok a'   => inOrder f a' bs

/-- An instruction added to a table; its opcode must be new (R122, R225). -/
def addRow (table : List Row) (row : Row) : Except ConfigFailure (List Row) :=
  if table.any (fun x => x.opcode == row.opcode) then .error (.duplicateOpcode row.opcode) else .ok (table ++ [row])

/-- Instructions added one after another (R122). DESIGN CHOICE (log entry 11): where several opcodes are duplicated,
`DuplicateOpcode` records that of the first row in list order that repeats an earlier one (R225 says only "the opcode"). -/
def addRows (table : List Row) (rows : List Row) : Except ConfigFailure (List Row) := inOrder addRow table rows

/-- The dispatch table of a list of instructions (R121, R122). It says which lists build; the machine's own table is `opcodeTable`
(R130), and `lookupOpcode` reads no other. -/
def buildTable (rows : List Row) : Except ConfigFailure (List Row) := addRows [] rows

/-- `registerBank` (R59, R61): the bank must be well-formed and share no address with a registered one. DESIGN CHOICES (log
entry 11), the spec leaving both open: a bank that is ill-formed and overlaps is reported as `BadBank`; where the new bank intersects
several registered banks, `OverlapError` records the one registered first (R224 says only "the two banks"). -/
def registerBank (banks : List Bank) (b : Bank) : Except ConfigFailure (List Bank) :=
  if b.wellFormed then
    match banks.find? (fun x => x.overlaps b) with
    | some old => .error (.overlapError b old)
    | none     => .ok (banks ++ [b])
  else .error (.badBank b)

/-- Banks registered one after another. DESIGN CHOICE (log entry 11): the failure reported is that of the earliest bank of the list
that has one. -/
def registerBanks (banks : List Bank) (bs : List Bank) : Except ConfigFailure (List Bank) := inOrder registerBank banks bs

/-- A bank and the bytes the loader gives it before execution, from its offset on (R10, R58). -/
structure BankInit where
  bank  : Bank
  image : List Byte
deriving DecidableEq, Repr

/-- The loader stores one image (R58). A read-only bank gets it at construction, so permission is not checked; the span must lie in
the bank (R55), or the loader meets `OutOfRange` (R221), which records the address given, the bank's offset. -/
def State.loadBank (s : State) (x : BankInit) : Except ConfigFailure State :=
  if x.bank.ownsSpan x.bank.offset x.image.length then
    .ok (s.storeSpan x.bank x.image (BitVec.ofNat 16 x.bank.offset))
  else .error (.outOfRange (BitVec.ofNat 16 x.bank.offset))

/-- The construction of one bank (R252 (2), R58): it must be well-formed (R59), and a read-only bank receives its image. -/
def State.constructBank (s : State) (x : BankInit) : Except ConfigFailure State :=
  if x.bank.wellFormed then
    match x.bank.perm with
    | .readOnly  => s.loadBank x
    | .readWrite => .ok s
  else .error (.badBank x.bank)

/-- The filling of one bank (R252 (4)): a read-write bank gets its bytes, a read-only one has them since its construction. -/
def State.fillBank (s : State) (x : BankInit) : Except ConfigFailure State :=
  match x.bank.perm with
  | .readOnly  => .ok s
  | .readWrite => s.loadBank x

/-- What R252 does once the table is built: (2) every bank constructed, (3) every bank registered, (4) the read-write banks filled,
(5) reset. The registers and SP hold whatever power-on left in them (R39, R250), and the reset keeps it (log entry 9). DESIGN
CHOICES (log entry 17), the spec leaving them open: each stage takes the banks in list order and reports its first failure, so that
in (2) an earlier bank's image counts before a later bank's well-formedness; and an image that does not fit its bank in (4) leaves
no machine, which R231 and R252 say of failures of (1) to (3) alone. -/
def setUpBanks (inits : List BankInit) (resetPc : Addr) (regs : Regs) (sp : Addr) : Except ConfigFailure State :=
  (inOrder State.constructBank ⟨regs, sp, resetPc, Latch.clear, 0, [], [], [], resetPc⟩ inits).bind fun constructed =>
    (registerBanks [] (inits.map BankInit.bank)).bind fun banks =>
      (inOrder State.fillBank { constructed with banks := banks } inits).bind fun filled => .ok filled.hostReset

/-- Boot, in the order of R252: the table, the banks, their bytes, reset. The table is no parameter (R10, R130): it is `opcodeTable`,
the one every step decodes with (`lookupOpcode`), and building it succeeds (R122). The choices the spec leaves open stand at
`addRows`, `registerBank`, `registerBanks` and `setUpBanks` (log entries 9, 11, 17). -/
def boot (inits : List BankInit) (resetPc : Addr) (regs : Regs) (sp : Addr) : Except ConfigFailure State :=
  (buildTable opcodeTable).bind fun _ => setUpBanks inits resetPc regs sp

end Sys2Proof.Machine
end

