-- ==== Sys2Proof/Safety.lean ====
section
/-! DEFINITION. The terms the claims use: the invariant of the machine, what a form writes, and when a fetch fails. -/
namespace Sys2Proof.Machine

/-! ### The invariant -/

/-- Every listed byte belongs to a storage bank: the bytes of storage banks are all the memory there is (R37, R60). -/
def memoryOwned (banks : List Bank) (m : Memory) : Bool := m.all (fun c => storageOwned banks (BitVec.ofNat 16 c.1))

/-- The latch tells the truth. Clear, it holds nothing (R33). Set, it holds one of the kinds a step can raise (R227), the failed
address really is unmapped or read-only, or the opcode really is undefined (R222, R223, R226), and pc still is the address of the
instruction that failed (R228, R229). -/
def State.latchTrue (s : State) : Bool :=
  if s.latch.faulted then
    decide (s.latch.pc = s.pc) &&
      match s.latch.kind with
      | .unmappedAddress  => decide (ownerOf s.banks s.latch.addr = none)
      | .permissionDenied => (ownerOf s.banks s.latch.addr).any (fun b => decide (b.perm = .readOnly))
      | .undefinedOpcode  => decide (s.latch.addr.toNat < 256) && (lookupOpcode (loByte s.latch.addr)).isNone
      | _                 => false
  else decide (s.latch = Latch.clear)

/-- The invariant: the banks are as registration leaves them (R59, R61), memory is in canonical form and only in storage banks, and
the latch tells the truth. -/
abbrev State.Inv (s : State) : Prop :=
  banksWellFormed s.banks = true ∧ Memory.wf s.mem = true ∧ memoryOwned s.banks s.mem = true ∧ s.latchTrue = true

/-! ### What a form writes -/

/-- The register a form writes, F aside (R31). -/
def destReg : Form → Option Reg
  | .ldRegReg dst _ => some (opReg dst)
  | .ldRegImm dst _ => some (opReg dst)
  | .ldRegInd dst   => some (opReg dst)
  | .ldAccPair _    => some .a
  | .ldAccAbs _     => some .a
  | .ldAccPort      => some .a
  | .ldIndReg _     => none
  | .ldPairAcc _    => none
  | .ldAbsAcc _     => none
  | .ldPortAcc      => none
  | .alu .cp _      => none
  | .alu _ _        => some .a
  | .inc (.reg r)   => some (opReg r)
  | .inc .indHL     => none
  | .dec (.reg r)   => some (opReg r)
  | .dec .indHL     => none

/-- A form of the ALU family: these write F, no other form does (R30). -/
def writesFlags : Form → Bool
  | .alu _ _ => true
  | .inc _   => true
  | .dec _   => true
  | _        => false

/-- An increment or a decrement: these keep bit 4 of F (R192). -/
def keepsCarry : Form → Bool
  | .inc _ => true
  | .dec _ => true
  | _      => false

/-- The address a form stores to, computed as its meaning computes it (R150); none if it stores nothing. -/
def storeAddr (s : State) : Form → Option Addr
  | .ldIndReg _   => some (s.getExt .hl)
  | .ldPairAcc p  => some (s.getExt (accPair p))
  | .ldAbsAcc nn  => some nn
  | .ldPortAcc    => some (s.portAddr .c Config.portBase)
  | .inc .indHL   => some (s.getExt .hl)
  | .dec .indHL   => some (s.getExt .hl)
  | _             => none

/-- The address of a form's data read (R150); none if it reads no data from memory. -/
def loadAddr (s : State) : Form → Option Addr
  | .ldRegInd _   => some (s.getExt .hl)
  | .ldAccPair p  => some (s.getExt (accPair p))
  | .ldAccAbs nn  => some nn
  | .ldAccPort    => some (s.portAddr .c Config.portBase)
  | .alu _ .indHL => some (s.getExt .hl)
  | .inc .indHL   => some (s.getExt .hl)
  | .dec .indHL   => some (s.getExt .hl)
  | _             => none

/-- The right operand of an accumulator operation (R191): its value and the state its access leaves, or the failure. -/
def State.operand (s : State) : AluSrc → Access Byte
  | .reg r => .ok (s.get (opReg r)) s
  | .indHL => s.memRead (s.getExt .hl)
  | .imm n => .ok n s

/-- F as the spec writes it from its four flags: `Z*128 + N*64 + H*32 + C*16` (R192). -/
def flagByte (z n h c : Bool) : Byte :=
  BitVec.ofNat 8 ((if z then 128 else 0) + (if n then 64 else 0) + (if h then 32 else 0) + (if c then 16 else 0))

/-! ### Fetching -/

/-- The 90 undefined opcodes, as R104 lists them. -/
def undefinedOpcodes : List Nat :=
  [0x00, 0x01, 0x03, 0x07, 0x08, 0x09, 0x0B, 0x0F, 0x10, 0x11, 0x13, 0x17, 0x18, 0x19, 0x1B, 0x1F, 0x20, 0x21, 0x22, 0x23,
   0x27, 0x28, 0x29, 0x2A, 0x2B, 0x2F, 0x30, 0x31, 0x32, 0x33, 0x36, 0x37, 0x38, 0x39, 0x3A, 0x3B, 0x3F, 0x76, 0xC0, 0xC1,
   0xC2, 0xC3, 0xC4, 0xC5, 0xC7, 0xC8, 0xC9, 0xCA, 0xCB, 0xCC, 0xCD, 0xCF, 0xD0, 0xD1, 0xD2, 0xD3, 0xD4, 0xD5, 0xD7, 0xD8,
   0xD9, 0xDA, 0xDB, 0xDC, 0xDD, 0xDF, 0xE0, 0xE1, 0xE3, 0xE4, 0xE5, 0xE7, 0xE8, 0xE9, 0xEB, 0xEC, 0xED, 0xEF, 0xF0, 0xF1,
   0xF3, 0xF4, 0xF5, 0xF7, 0xF8, 0xF9, 0xFB, 0xFC, 0xFD, 0xFF]

/-- The bytes of an instruction stand in storage banks at the program counter: a fetch reads exactly them. -/
abbrev bytesAtPc (s : State) (bytes : List Byte) : Prop :=
  ∀ k, ∀ h : k < bytes.length,
    storageOwned s.banks (s.pc + BitVec.ofNat 16 k) = true ∧
      Memory.read s.mem (s.pc + BitVec.ofNat 16 k).toNat = bytes[k]

/-- The bytes from `(pc + k) mod 65536` on, read one after another in ascending order, each once and from whatever bank owns its
address, storage or device (R70, R73, R80, R149); `t` is the state after these reads and no other access. -/
def bytesFetched (s : State) (k : Nat) : List Byte → State → Prop
  | [],      t => t = s
  | v :: vs, t =>
    ∃ b, ownerOf s.banks (s.pc + BitVec.ofNat 16 k) = some b ∧ s.byteAt b (s.pc + BitVec.ofNat 16 k) = v ∧
      bytesFetched (s.noteRead b (s.pc + BitVec.ofNat 16 k)) (k + 1) vs t

/-- The events of reading `len` bytes from `a` on, ascending, newest first. -/
def readEvents (a : Addr) (len : Nat) : List DeviceEvent :=
  ((List.range len).map fun k => DeviceEvent.read (a + BitVec.ofNat 16 k)).reverse

/-- The events of writing these bytes from `a` on, ascending, newest first. -/
def writeEvents (a : Addr) (vs : List Byte) : List DeviceEvent :=
  (vs.mapIdx fun k v => DeviceEvent.write (a + BitVec.ofNat 16 k) v).reverse

/-- The fetch failures of an instruction (R80, R223, R230): the opcode's address unmapped, or, its opcode read, the first operand
byte's, or, that read too, the second one's. Each is the whole step. -/
def FetchFailures (i : Instr) : Prop :=
  ∀ s : State, s.latch.faulted = false →
    (ownerOf s.banks s.pc = none → step s = .next (s.raise .unmappedAddress s.pc)) ∧
    (∀ b, ownerOf s.banks s.pc = some b → s.byteAt b s.pc = i.opcode →
      (2 ≤ i.len → ownerOf s.banks (s.pc + 1) = none →
        step s = .next ((s.noteRead b s.pc).raise .unmappedAddress (s.pc + 1))) ∧
      (3 ≤ i.len → ∀ b1, ownerOf s.banks (s.pc + 1) = some b1 → ownerOf s.banks (s.pc + 2) = none →
        step s = .next (((s.noteRead b s.pc).noteRead b1 (s.pc + 1)).raise .unmappedAddress (s.pc + 2))))

/-! ### Accumulator operations -/

/-- The bytes the rules give an accumulator operation: `0x80 + 8*op + z` for a register or `(HL)`, `0xC6 + 8*op` and `n` for an
immediate (R92, R195 to R202). -/
def accBytes (op : AluOp) : AluSrc → List Byte
  | .reg r => [BitVec.ofNat 8 (0x80 + 8 * op.code + r.code)]
  | .indHL => [BitVec.ofNat 8 (0x80 + 8 * op.code + 6)]
  | .imm n => [BitVec.ofNat 8 (0xC6 + 8 * op.code), n]

/-- The length of an accumulator operation (R191). -/
def accLen : AluSrc → Nat
  | .reg _ => 1
  | .indHL => 1
  | .imm _ => 2

/-- The cost of an accumulator operation (R191). -/
def accCost : AluSrc → Nat
  | .reg _ => 4
  | .indHL => 8
  | .imm _ => 8

/-- All a rule says of an accumulator operation whose effect on A and F is `f`: its bytes decode to it, its fetch failures, the
failure of its `(HL)` form at an unmapped address, and, its operand read, its completion. -/
def AccEffect (op : AluOp) (f : State → Byte → State) : Prop :=
  ∀ (i : Instr) (src : AluSrc), i.form = .alu op src →
    decode (accBytes op src) = .instr i [] ∧
    FetchFailures i ∧
    (∀ s : State, src = .indHL → ownerOf s.banks (wordOf s.regs.h s.regs.l) = none →
      exec i s = .next { s with latch := ⟨true, .unmappedAddress, wordOf s.regs.h s.regs.l, s.pc⟩ }) ∧
    (∀ (s t : State) (v : Byte), s.operand src = .ok v t →
      exec i s = .next { f t v with pc := s.pc + BitVec.ofNat 16 (accLen src), cyc := s.cyc + accCost src })

/-- A written and F written whole (R192, R195 to R201). -/
def writeAccFlags (s : State) (a f : Byte) : State := { s with regs := { s.regs with a := a, f := f } }

/-- F written whole, nothing else (R202). -/
def writeFlags (s : State) (f : Byte) : State := { s with regs := { s.regs with f := f } }

/-- The carry flag as a number, `x[F][4]` (R12, R30). -/
def carryBit (s : State) : Nat := s.regs.f.toNat / 16 % 2

/-- An outcome with its next state changed. -/
def mapNext (f : State → State) : Host.Outcome State Fault Refusal → Host.Outcome State Fault Refusal
  | .next s    => .next (f s)
  | .fault r   => .fault r
  | .refused r => .refused r

end Sys2Proof.Machine
end

