-- ==== Sys2Proof/Certificates/Slice0/Obligations.lean ====
section
/-! DEFINITION. The statements for the provers. -/
open Sys2Proof Sys2Proof.Machine

/-! ### Reset and boot -/

/-- R250: the host's reset sets pc to RESET_PC, clears the latch and the cycle counter, and leaves the bank contents; the
next opcode is fetched at RESET_PC. What the registers hold is not claimed here. -/
def Obligations.HostResetEffect : Prop :=
  ∀ s : State,
    s.hostReset.pc = s.resetPc ∧ s.hostReset.latch = ⟨false, .noFailure, 0, 0⟩ ∧ s.hostReset.cyc = 0 ∧
    s.hostReset.mem = s.mem ∧ s.hostReset.banks = s.banks ∧ s.hostReset.resetPc = s.resetPc ∧
    s.hostReset.fetchByte 0 = s.hostReset.memRead s.resetPc

/-- 95_test_vectors V11 ("registers and bank bytes as they were"), and R40: a reset does not write the registers. Log entry 9:
the model's reading of "left unspecified" (R250). -/
def Obligations.HostResetKeepsRegisters : Prop :=
  ∀ s : State, s.hostReset.regs = s.regs ∧ s.hostReset.sp = s.sp ∧ s.hostReset.events = s.events

/-- R39 on the platform REF of R71, which is the model's choice of platform (log entry 2): pc 0x0000, the latch and the counter
zero, the three banks. The registers' values are the model's own (log entry 3) and not claimed here. -/
def Obligations.StateAfterResetOnRef : Prop :=
  State.reset.pc = 0x0000 ∧ State.reset.latch = ⟨false, .noFailure, 0, 0⟩ ∧ State.reset.cyc = 0 ∧
  State.reset.banks =
    [⟨0x0000, 0x8000, .readOnly, .storage⟩, ⟨0xC000, 0x2000, .readWrite, .storage⟩, ⟨0xFF00, 0x0100, .readWrite, .storage⟩] ∧
  State.reset.resetPc = 0x0000

/-- The state after reset meets the invariant that every step keeps. -/
def Obligations.ResetMeetsInvariant : Prop := State.reset.Inv

/-- R252, R231: whatever banks, images, RESET_PC and register contents a machine is booted with, if boot succeeds the machine
meets the invariant: its banks are well-formed and disjoint, its bytes lie in storage banks, its latch is clear; and every storage
bank, read-only or read-write, holds the image it was given (R39, R58). That the registers
and SP are those of power-on after the reset that ends the boot is the model's own reading of "left unspecified" (R250): log
entry 9. And a boot does succeed, whenever the banks are well-formed and disjoint and each image fits its bank; the machine it
answers can take a step (R132). -/
def Obligations.BootedMachineMeetsInvariant : Prop :=
  (∀ (inits : List BankInit) (resetPc : Addr) (regs : Regs) (sp : Addr) (s : State),
    boot inits resetPc regs sp = .ok s →
    s.Inv ∧ s.latch = ⟨false, .noFailure, 0, 0⟩ ∧ (∃ t, step s = .next t) ∧ s.pc = resetPc ∧ s.resetPc = resetPc ∧ s.cyc = 0 ∧ s.regs = regs ∧ s.sp = sp ∧ s.banks = inits.map BankInit.bank ∧
    ∀ x ∈ inits, x.bank.kind = .storage →
      ∀ k, ∀ h : k < x.image.length, Memory.read s.mem (x.bank.offset + k) = x.image[k]) ∧
  (∀ (inits : List BankInit) (resetPc : Addr) (regs : Regs) (sp : Addr),
    banksWellFormed (inits.map BankInit.bank) = true → (∀ x ∈ inits, x.image.length ≤ x.bank.size) →
    ∃ s, boot inits resetPc regs sp = .ok s)

/-! ### The step -/

/-- The invariant of the machine: the banks stay well-formed and disjoint (R59, R60), memory stays canonical and inside storage
banks (R37), and the latch always tells the truth about the failure it records (R33, R222, R223, R226, R228, R229). -/
def Obligations.StepKeepsInvariant : Prop :=
  ∀ s t : State, s.Inv → step s = .next t → t.Inv

/-- R254, R38: no step and no other host action changes a bank's place, size, permission or kind, the number of banks, or
RESET_PC. -/
def Obligations.ConfigurationNeverChanges : Prop :=
  ∀ (x : HostAction) (s t : State), hostAct x s = .next t → t.banks = s.banks ∧ t.resetPc = s.resetPc

/-- R126, R132: a core whose latch is clear has a step; a faulted core has none (the model's fault `coreFaulted`). -/
def Obligations.StepsExactlyWhileNotFaulted : Prop :=
  ∀ s : State,
    (s.latch.faulted = false → ∃ t, step s = .next t) ∧ (s.latch.faulted = true → step s = .fault .coreFaulted)

/-- R229, R228: a failed step changes the latch and what devices have seen (earlier events stay), and nothing else: every
register, flag, pc, SP, the cycle counter and every byte are as before; the latch holds the pc of the failing instruction. -/
def Obligations.FailedStepIsPrecise : Prop :=
  ∀ s t : State, s.latch.faulted = false → step s = .next t → t.latch.faulted = true →
    t = { s with latch := t.latch, events := t.events } ∧ s.events <:+ t.events ∧ t.latch.pc = s.pc

/-- R227: only the codes 2, 3 and 6 can appear in the latch after a failed step. -/
def Obligations.OnlyRunTimeKindsReachTheLatch : Prop :=
  ∀ s t : State, s.latch.faulted = false → step s = .next t → t.latch.faulted = true →
    t.latch.kind.code = 2 ∨ t.latch.kind.code = 3 ∨ t.latch.kind.code = 6

/-- R29, R129: a step that completes advances pc by the length of the instruction it fetched, modulo 65536, and the counter by its
cost; a step that fails changes neither. -/
def Obligations.CompletedStepAdvances : Prop :=
  ∀ s t : State, s.latch.faulted = false → step s = .next t →
    (t.latch.faulted = false →
      ∃ i u, s.fetch = .ok i u ∧ t.pc = s.pc + BitVec.ofNat 16 i.len ∧ t.cyc = s.cyc + i.cost) ∧
    (t.latch.faulted = true → t.pc = s.pc ∧ t.cyc = s.cyc)

/-- A step runs the decoded instruction (R126). From every mapped bank, storage or device (R73): when the bytes read from pc on, each
once and in ascending order (R70, R80), decode to an instruction, the step is `exec` of it in the state these reads leave. So a
device has seen each of them once, in order, before the instruction's own accesses, and nothing else has changed. In storage banks
the reads leave the state as it was: when the bytes that stand at pc decode to an instruction and a rest, the step is `exec` of it. -/
def Obligations.StepRunsDecodedInstruction : Prop :=
  (∀ (s t : State) (bytes : List Byte) (i : Instr), s.latch.faulted = false → bytesFetched s 0 bytes t →
    decode bytes = .instr i [] → step s = exec i t) ∧
  (∀ (s : State) (bytes rest : List Byte) (i : Instr), s.latch.faulted = false → bytesAtPc s bytes →
    decode bytes = .instr i rest → step s = exec i s)

/-- R104, R131, R226: exactly the 90 opcodes of R104's list have no entry; fetching one fails the step with `UndefinedOpcode`, the
opcode zero-extended in the latch; no operand byte is read. -/
def Obligations.UndefinedOpcodeTraps : Prop :=
  (∀ op : Byte, lookupOpcode op = none ↔ op.toNat ∈ undefinedOpcodes) ∧ undefinedOpcodes.length = 90 ∧
  ∀ (s : State) (b : Bank), s.latch.faulted = false → ownerOf s.banks s.pc = some b →
    (s.byteAt b s.pc).toNat ∈ undefinedOpcodes →
    step s = .next { s.noteRead b s.pc with
      latch := ⟨true, .undefinedOpcode, BitVec.ofNat 16 (s.byteAt b s.pc).toNat, s.pc⟩ }

/-- R27, R31: SP is read by no instruction, and what it holds changes nothing else: a step from the same state with another
SP is the same step with that SP kept. -/
def Obligations.StackPointerNeverMatters : Prop :=
  ∀ (s : State) (x : Addr), step { s with sp := x } = mapNext (fun t => { t with sp := x }) (step s)

/-- R258: nothing depends on the cycle counter: a step with the counter `n` ahead is the same step with the counter `n` ahead. -/
def Obligations.CycleCounterNeverMatters : Prop :=
  ∀ (s : State) (n : Nat),
    step { s with cyc := s.cyc + n } = mapNext (fun t => { t with cyc := t.cyc + n }) (step s)

/-! ### Encoding -/

/-- Decoding the bytes of an instruction gives it back, with every operand at every value, whatever bytes follow (R90, R91, R95,
R102). -/
def Obligations.DecodeOfEncode : Prop :=
  ∀ (i : Instr) (rest : List Byte), decode (encode i ++ rest) = .instr i rest

/-- Bytes that decode to an instruction are its encoding and what follows: no two byte sequences spell one instruction
(R102, R109). -/
def Obligations.EncodeOfDecode : Prop :=
  ∀ (bytes rest : List Byte) (i : Instr), decode bytes = .instr i rest → bytes = encode i ++ rest

/-- Words written out bit by bit from the spec's encodings (R161, R162, R171 to R180, R195, R202, R203, R206) decode to their
instructions. A sanity statement. -/
def Obligations.WordsOfTheSpecDecode : Prop :=
  decode [0b01000111] = .instr .ldBA [] ∧
  decode [0b00111110, 0b01011100] = .instr (.ldAImm 0x5C) [] ∧
  decode [0b01111110] = .instr .ldAIndHL [] ∧
  decode [0b11111010, 0b00110100, 0b11000010] = .instr (.ldAAbs 0xC234) [] ∧
  decode [0b11101010, 0b00000010, 0b11000000] = .instr (.ldAbsA 0xC002) [] ∧
  decode [0b11110010] = .instr .ldAPortC [] ∧
  decode [0b11100010] = .instr .ldPortCA [] ∧
  decode [0b10001011] = .instr .adcAE [] ∧
  decode [0b11010110, 0b00001111] = .instr (.subImm 0x0F) [] ∧
  decode [0b00110101] = .instr .decIndHL []

/-- R122: building a table with two instructions on one opcode fails with `DuplicateOpcode`, and whatever would follow the building
leaves no machine; without, it succeeds; the table of the spec, of 166 entries, has no duplicate; and a boot begins with building
that table, and no other (R130). -/
def Obligations.DuplicateOpcodesAreRefused : Prop :=
  (∀ rows : List Row, opcodesUnique (rows.map Row.opcode) = false →
    ∃ op, buildTable rows = .error (.duplicateOpcode op) ∧
      ∀ next : List Row → Except ConfigFailure State, (buildTable rows).bind next = .error (.duplicateOpcode op)) ∧
  (∀ rows : List Row, opcodesUnique (rows.map Row.opcode) = true → buildTable rows = .ok rows) ∧
  opcodesUnique (opcodeTable.map Row.opcode) = true ∧ opcodeTable.length = 166 ∧
  (∀ inits resetPc regs sp,
    boot inits resetPc regs sp = (buildTable opcodeTable).bind fun _ => setUpBanks inits resetPc regs sp)

/-- R90: the length of every instruction is a function of its opcode: 3 for 0xEA and 0xFA, 2 for the fifteen immediate opcodes,
else 1; and its encoding has that many bytes. -/
def Obligations.LengthByOpcode : Prop :=
  ∀ i : Instr,
    (encode i).length = i.len ∧
    i.len =
      if i.opcode = 0xEA ∨ i.opcode = 0xFA then 3
      else if i.opcode.toNat ∈ [0x06, 0x0E, 0x16, 0x1E, 0x26, 0x2E, 0x3E, 0xC6, 0xCE, 0xD6, 0xDE, 0xE6, 0xEE, 0xF6, 0xFE] then 2
      else 1

/-! ### The register file -/

/-- R24: BC, DE and HL are their halves, the first-named register high. -/
def Obligations.PairComposition : Prop :=
  ∀ s : State,
    (s.getExt .bc).toNat = s.regs.b.toNat * 256 + s.regs.c.toNat ∧
    (s.getExt .de).toNat = s.regs.d.toNat * 256 + s.regs.e.toNat ∧
    (s.getExt .hl).toNat = s.regs.h.toNat * 256 + s.regs.l.toNat

/-- R26, R25: what `setExtended` writes, modulo 65536, `getExtended` returns, for every pair; the halves hold the high and the low
byte; and a half written alone changes its half of the pair. -/
def Obligations.ExtendedRegisterRoundTrip : Prop :=
  ∀ (s : State) (n : Nat) (v : Byte),
    (∀ p : ExtReg, ((s.setExtNat p n).getExt p).toNat = n % 65536) ∧
    ((s.setExtNat .bc n).get .b).toNat = n % 65536 / 256 ∧ ((s.setExtNat .bc n).get .c).toNat = n % 256 ∧
    ((s.setExtNat .de n).get .d).toNat = n % 65536 / 256 ∧ ((s.setExtNat .de n).get .e).toNat = n % 256 ∧
    ((s.setExtNat .hl n).get .h).toNat = n % 65536 / 256 ∧ ((s.setExtNat .hl n).get .l).toNat = n % 256 ∧
    (s.set .b v).getExt .bc = wordOf v s.regs.c ∧ (s.set .c v).getExt .bc = wordOf s.regs.b v ∧
    (s.set .d v).getExt .de = wordOf v s.regs.e ∧ (s.set .e v).getExt .de = wordOf s.regs.d v ∧
    (s.set .h v).getExt .hl = wordOf v s.regs.l ∧ (s.set .l v).getExt .hl = wordOf s.regs.h v

/-- R22: `set` truncates modulo 256, `get` returns what was set, and no other register and nothing else changes. -/
def Obligations.RegisterSetGet : Prop :=
  ∀ (s : State) (r : Reg) (n : Nat),
    ((s.setNat r n).get r).toNat = n % 256 ∧
    (∀ r' : Reg, r' ≠ r → (s.setNat r n).get r' = s.get r') ∧
    s.setNat r n = { s with regs := (s.setNat r n).regs }

/-! ### Banks and the address space -/

/-- R52: a bank's read fails with `OutOfRange` outside the bank, whatever its permission, and else returns the byte at the address
and, of a storage bank, changes nothing. -/
def Obligations.BankReadChecksBounds : Prop :=
  ∀ (s : State) (b : Bank) (a : Addr),
    (a.toNat < b.offset ∨ b.offset + b.size ≤ a.toNat → s.bankRead b a = .failed .outOfRange a s) ∧
    (b.offset ≤ a.toNat → a.toNat < b.offset + b.size → b.kind = .storage →
      s.bankRead b a = .ok (Memory.read s.mem a.toNat) s)

/-- R54: a bank's write checks bounds first, then permission; a failed write changes no byte; else the byte is stored. -/
def Obligations.BankWriteChecksBoundsThenPermission : Prop :=
  ∀ (s : State) (b : Bank) (v : Byte) (a : Addr),
    (a.toNat < b.offset ∨ b.offset + b.size ≤ a.toNat → s.bankWrite b v a = .failed .outOfRange a s) ∧
    (b.offset ≤ a.toNat → a.toNat < b.offset + b.size →
      (b.perm = .readOnly → s.bankWrite b v a = .failed .permissionDenied a s) ∧
      (b.perm = .readWrite → b.kind = .storage →
        s.bankWrite b v a = .ok () { s with mem := Memory.write s.mem a.toNat v }))

/-- R57, the storage law: in a storage bank a successful write is read back and leaves every other byte alone; a read-only bank
denies every write; outside the bank both fail with `OutOfRange`, whatever the permission. -/
def Obligations.StorageLaw : Prop :=
  ∀ (s : State) (b : Bank) (v : Byte) (a : Addr), Memory.wf s.mem = true → b.kind = .storage →
    (b.owns a.toNat = true → b.perm = .readWrite →
      ∃ t, s.bankWrite b v a = .ok () t ∧ t.bankRead b a = .ok v t ∧
        ∀ x, x ≠ a.toNat → Memory.read t.mem x = Memory.read s.mem x) ∧
    (b.owns a.toNat = true → b.perm = .readOnly → s.bankWrite b v a = .failed .permissionDenied a s) ∧
    (b.owns a.toNat = false → s.bankRead b a = .failed .outOfRange a s ∧ s.bankWrite b v a = .failed .outOfRange a s)

/-- R53: of every bank, storage or device (R66), a range read of a span not wholly in the bank fails with `OutOfRange`, and one of
length 0 is refused (U6); of a storage bank it returns the bytes of the span in ascending address order and changes nothing. What a
device bank answers to a span is in `DeviceAccessesAreSeenOnce`. -/
def Obligations.RangeReadReturnsTheSpan : Prop :=
  ∀ (s : State) (b : Bank) (a : Addr) (len : Nat),
    (len = 0 → s.bankReadRange b a len = .refused .emptyRange) ∧
    (1 ≤ len → (a.toNat < b.offset ∨ b.offset + b.size < a.toNat + len) →
      s.bankReadRange b a len = .next (.failed .outOfRange a s)) ∧
    (1 ≤ len → b.offset ≤ a.toNat → a.toNat + len ≤ b.offset + b.size → b.wellFormed = true → b.kind = .storage →
      s.bankReadRange b a len = .next (.ok ((List.range len).map (fun k => Memory.read s.mem (a.toNat + k))) s))

/-- R55: a range write is all or nothing. Of every bank, storage or device (R66): out of range or read-only, nothing changes (bounds
first), and length 0 is refused (U6). Of a read-write storage bank every byte of the span is stored, in ascending order, and no byte
outside it changes. What a read-write device bank sees of a span is in `DeviceAccessesAreSeenOnce`. -/
def Obligations.RangeWriteIsAllOrNothing : Prop :=
  ∀ (s : State) (b : Bank) (vs : List Byte) (a : Addr),
    (vs = [] → s.bankWriteRange b vs a = .refused .emptyRange) ∧
    (vs ≠ [] → (a.toNat < b.offset ∨ b.offset + b.size < a.toNat + vs.length) →
      s.bankWriteRange b vs a = .next (.failed .outOfRange a s)) ∧
    (vs ≠ [] → b.offset ≤ a.toNat → a.toNat + vs.length ≤ b.offset + b.size →
      (b.perm = .readOnly → s.bankWriteRange b vs a = .next (.failed .permissionDenied a s)) ∧
      (b.perm = .readWrite → Memory.wf s.mem = true → b.wellFormed = true → b.kind = .storage →
        ∃ t, s.bankWriteRange b vs a = .next (.ok () t) ∧ t = { s with mem := t.mem } ∧ Memory.wf t.mem = true ∧
          (∀ k, ∀ h : k < vs.length, Memory.read t.mem (a.toNat + k) = vs[k]) ∧
          (∀ x, x < a.toNat ∨ a.toNat + vs.length ≤ x → Memory.read t.mem x = Memory.read s.mem x)))

/-- R66, R70, with the free value of log entry 7: a device bank keeps the bounds check of R52 and the permission check of R54; an
in-range read answers whatever the device answers, an in-range permitted write is recorded, and each is seen once. A range read or
write in bounds is its byte accesses in ascending address order, each seen once, each read answered after those before it: that a
device sees a span so is the model's choice (log entry 14). -/
def Obligations.DeviceAccessesAreSeenOnce : Prop :=
  ∀ (s : State) (b : Bank) (v : Byte) (a : Addr), b.kind = .device →
    (b.owns a.toNat = false → s.bankRead b a = .failed .outOfRange a s ∧ s.bankWrite b v a = .failed .outOfRange a s) ∧
    (b.owns a.toNat = true →
      s.bankRead b a = .ok (Config.deviceAnswer s.events a) { s with events := .read a :: s.events } ∧
      (b.perm = .readOnly → s.bankWrite b v a = .failed .permissionDenied a s) ∧
      (b.perm = .readWrite → s.bankWrite b v a = .ok () { s with events := .write a v :: s.events })) ∧
    (∀ len, 1 ≤ len → b.offset ≤ a.toNat → a.toNat + len ≤ b.offset + b.size →
      s.bankReadRange b a len =
        .next (.ok ((List.range len).map fun k => Config.deviceAnswer (readEvents a k ++ s.events) (a + BitVec.ofNat 16 k))
          { s with events := readEvents a len ++ s.events })) ∧
    (∀ vs : List Byte, vs ≠ [] → b.offset ≤ a.toNat → a.toNat + vs.length ≤ b.offset + b.size → b.perm = .readWrite →
      s.bankWriteRange b vs a = .next (.ok () { s with events := writeEvents a vs ++ s.events }))

/-- R62: `MemRead` finds the bank that owns the address and delegates to it, or fails with `UnmappedAddress`; no bank failure can
occur. -/
def Obligations.ReadsAreRouted : Prop :=
  ∀ (s : State) (a : Addr),
    ((∀ b ∈ s.banks, b.owns a.toNat = false) → s.memRead a = .failed .unmappedAddress a s) ∧
    (∀ b ∈ s.banks, banksWellFormed s.banks = true → b.owns a.toNat = true →
      s.memRead a = s.bankRead b a ∧ ∃ v t, s.memRead a = .ok v t)

/-- R63: `MemWrite` finds the bank that owns the address, and fails with `UnmappedAddress` if there is none, with
`PermissionDenied` if it is read-only; on either failure nothing changes; else the bank is written. -/
def Obligations.WritesAreRouted : Prop :=
  ∀ (s : State) (a : Addr) (v : Byte),
    ((∀ b ∈ s.banks, b.owns a.toNat = false) → s.memWrite a v = .failed .unmappedAddress a s) ∧
    (∀ b ∈ s.banks, banksWellFormed s.banks = true → b.owns a.toNat = true →
      s.memWrite a v = s.bankWrite b v a ∧
      (b.perm = .readOnly → s.memWrite a v = .failed .permissionDenied a s) ∧
      (b.perm = .readWrite → ∃ t, s.memWrite a v = .ok () t))

/-- R59, R61: a bank that is empty or reaches past 0xFFFF is not registered, and the failure is `BadBank` if it shares no address
with a registered bank; a well-formed bank whose range intersects a registered one fails with `OverlapError`; else it is added. -/
def Obligations.RegisterBankChecks : Prop :=
  ∀ (banks : List Bank) (b : Bank),
    (b.size = 0 ∨ 0x10000 < b.offset + b.size →
      (∃ e, registerBank banks b = .error e) ∧
      ((∀ x ∈ banks, ¬(x.offset < b.offset + b.size ∧ b.offset < x.offset + x.size)) →
        registerBank banks b = .error (.badBank b))) ∧
    (1 ≤ b.size → b.offset + b.size ≤ 0x10000 →
      ((∃ x ∈ banks, x.offset < b.offset + b.size ∧ b.offset < x.offset + x.size) →
        ∃ x ∈ banks, x.offset < b.offset + b.size ∧ b.offset < x.offset + x.size ∧
          registerBank banks b = .error (.overlapError b x)) ∧
      ((∀ x ∈ banks, ¬(x.offset < b.offset + b.size ∧ b.offset < x.offset + x.size)) →
        registerBank banks b = .ok (banks ++ [b])))

/-- R60: after registration at most one bank claims any given address, so the order of the banks has no effect on a lookup. -/
def Obligations.RegisteredBanksAreDisjoint : Prop :=
  ∀ (bs banks : List Bank), registerBanks [] bs = .ok banks →
    banksWellFormed banks = true ∧
    (∀ (a : Addr) (x y : Bank), x ∈ banks → y ∈ banks → x.owns a.toNat = true → y.owns a.toNat = true → x = y) ∧
    (∀ (a : Addr) (x : Bank), ownerOf banks a = some x ↔ x ∈ banks ∧ x.owns a.toNat = true)

/-- R77: a byte stored in a storage bank is what the next fetch from its address reads, with nothing to do in between. -/
def Obligations.StoresAreFetched : Prop :=
  ∀ (s t u : State) (a : Addr) (v : Byte) (k : Nat), Memory.wf s.mem = true → storageOwned s.banks a = true →
    s.memWrite a v = .ok () t → u.mem = t.mem → u.banks = t.banks → u.pc + BitVec.ofNat 16 k = a →
    u.fetchByte k = .ok v u

/-! ### Loads into a register from a register or an immediate -/

/-- R161, `LD r,r'`: all 49 rows. -/
def Obligations.LoadRegisterFromRegister : Prop :=
  ∀ (i : Instr) (dst src : OpReg), i.form = .ldRegReg dst src →
    decode [BitVec.ofNat 8 (0x40 + 8 * dst.code + src.code)] = .instr i [] ∧ FetchFailures i ∧
    ∀ s : State,
      exec i s = .next { s.set (opReg dst) (s.get (opReg src)) with pc := s.pc + 1, cyc := s.cyc + 4 }

/-- R162, `LD r,n`: all 7 rows, every immediate. -/
def Obligations.LoadRegisterFromImmediate : Prop :=
  ∀ (i : Instr) (dst : OpReg) (n : Byte), i.form = .ldRegImm dst n →
    decode [BitVec.ofNat 8 (0x06 + 8 * dst.code), n] = .instr i [] ∧ FetchFailures i ∧
    ∀ s : State, exec i s = .next { s.set (opReg dst) n with pc := s.pc + 2, cyc := s.cyc + 8 }

/-! ### Loads from memory -/

/-- R171, `LD r,(HL)`: all 7 rows. The address is the old HL also where the destination is H or L. -/
def Obligations.LoadRegisterFromHL : Prop :=
  ∀ (i : Instr) (dst : OpReg), i.form = .ldRegInd dst →
    decode [BitVec.ofNat 8 (0x46 + 8 * dst.code)] = .instr i [] ∧ FetchFailures i ∧
    ∀ (s : State) (ea : Addr), ea = wordOf s.regs.h s.regs.l →
      (ownerOf s.banks ea = none →
        exec i s = .next { s with latch := ⟨true, .unmappedAddress, ea, s.pc⟩ }) ∧
      (∀ b, ownerOf s.banks ea = some b →
        exec i s = .next { (s.noteRead b ea).set (opReg dst) (s.byteAt b ea) with pc := s.pc + 1, cyc := s.cyc + 8 })

/-- R172, R173, `LD A,(BC)` and `LD A,(DE)`. -/
def Obligations.LoadAFromPair : Prop :=
  (decode [0x0A] = .instr .ldAIndBC [] ∧ decode [0x1A] = .instr .ldAIndDE []) ∧
  FetchFailures .ldAIndBC ∧ FetchFailures .ldAIndDE ∧
  ∀ (s : State) (i : Instr) (ea : Addr),
    (i = .ldAIndBC ∧ ea = wordOf s.regs.b s.regs.c) ∨ (i = .ldAIndDE ∧ ea = wordOf s.regs.d s.regs.e) →
      (ownerOf s.banks ea = none →
        exec i s = .next { s with latch := ⟨true, .unmappedAddress, ea, s.pc⟩ }) ∧
      (∀ b, ownerOf s.banks ea = some b →
        exec i s = .next { (s.noteRead b ea).set .a (s.byteAt b ea) with pc := s.pc + 1, cyc := s.cyc + 8 })

/-- R174, `LD A,(nn)`: every absolute address. -/
def Obligations.LoadAFromAbsolute : Prop :=
  ∀ nn : Addr,
    decode [0xFA, BitVec.ofNat 8 (nn.toNat % 256), BitVec.ofNat 8 (nn.toNat / 256)] = .instr (.ldAAbs nn) [] ∧
    FetchFailures (.ldAAbs nn) ∧
    ∀ s : State,
      (ownerOf s.banks nn = none →
        exec (.ldAAbs nn) s = .next { s with latch := ⟨true, .unmappedAddress, nn, s.pc⟩ }) ∧
      (∀ b, ownerOf s.banks nn = some b →
        exec (.ldAAbs nn) s =
          .next { (s.noteRead b nn).set .a (s.byteAt b nn) with pc := s.pc + 3, cyc := s.cyc + 16 })

/-- R175, `LD A,(C)`: the port at 0xFF00 + C, which never overflows. -/
def Obligations.LoadAFromPort : Prop :=
  decode [0xF2] = .instr .ldAPortC [] ∧ FetchFailures .ldAPortC ∧
  ∀ (s : State) (ea : Addr), ea.toNat = 0xFF00 + s.regs.c.toNat →
    (ownerOf s.banks ea = none →
      exec .ldAPortC s = .next { s with latch := ⟨true, .unmappedAddress, ea, s.pc⟩ }) ∧
    (∀ b, ownerOf s.banks ea = some b →
      exec .ldAPortC s = .next { (s.noteRead b ea).set .a (s.byteAt b ea) with pc := s.pc + 1, cyc := s.cyc + 8 })

/-! ### Stores to memory -/

/-- R176, `LD (HL),r`: all 7 rows. -/
def Obligations.StoreRegisterToHL : Prop :=
  ∀ (i : Instr) (src : OpReg), i.form = .ldIndReg src →
    decode [BitVec.ofNat 8 (0x70 + src.code)] = .instr i [] ∧ FetchFailures i ∧
    ∀ (s : State) (ea : Addr), ea = wordOf s.regs.h s.regs.l →
      (ownerOf s.banks ea = none →
        exec i s = .next { s with latch := ⟨true, .unmappedAddress, ea, s.pc⟩ }) ∧
      (∀ b, ownerOf s.banks ea = some b → b.perm = .readOnly →
        exec i s = .next { s with latch := ⟨true, .permissionDenied, ea, s.pc⟩ }) ∧
      (∀ b, ownerOf s.banks ea = some b → b.perm = .readWrite →
        exec i s = .next { s.storeAt b (s.get (opReg src)) ea with pc := s.pc + 1, cyc := s.cyc + 8 })

/-- R177, R178, `LD (BC),A` and `LD (DE),A`. -/
def Obligations.StoreAToPair : Prop :=
  (decode [0x02] = .instr .ldIndBCA [] ∧ decode [0x12] = .instr .ldIndDEA []) ∧
  FetchFailures .ldIndBCA ∧ FetchFailures .ldIndDEA ∧
  ∀ (s : State) (i : Instr) (ea : Addr),
    (i = .ldIndBCA ∧ ea = wordOf s.regs.b s.regs.c) ∨ (i = .ldIndDEA ∧ ea = wordOf s.regs.d s.regs.e) →
      (ownerOf s.banks ea = none →
        exec i s = .next { s with latch := ⟨true, .unmappedAddress, ea, s.pc⟩ }) ∧
      (∀ b, ownerOf s.banks ea = some b → b.perm = .readOnly →
        exec i s = .next { s with latch := ⟨true, .permissionDenied, ea, s.pc⟩ }) ∧
      (∀ b, ownerOf s.banks ea = some b → b.perm = .readWrite →
        exec i s = .next { s.storeAt b s.regs.a ea with pc := s.pc + 1, cyc := s.cyc + 8 })

/-- R179, `LD (nn),A`: every absolute address. -/
def Obligations.StoreAToAbsolute : Prop :=
  ∀ nn : Addr,
    decode [0xEA, BitVec.ofNat 8 (nn.toNat % 256), BitVec.ofNat 8 (nn.toNat / 256)] = .instr (.ldAbsA nn) [] ∧
    FetchFailures (.ldAbsA nn) ∧
    ∀ s : State,
      (ownerOf s.banks nn = none →
        exec (.ldAbsA nn) s = .next { s with latch := ⟨true, .unmappedAddress, nn, s.pc⟩ }) ∧
      (∀ b, ownerOf s.banks nn = some b → b.perm = .readOnly →
        exec (.ldAbsA nn) s = .next { s with latch := ⟨true, .permissionDenied, nn, s.pc⟩ }) ∧
      (∀ b, ownerOf s.banks nn = some b → b.perm = .readWrite →
        exec (.ldAbsA nn) s = .next { s.storeAt b s.regs.a nn with pc := s.pc + 3, cyc := s.cyc + 16 })

/-- R180, `LD (C),A`: the port at 0xFF00 + C. -/
def Obligations.StoreAToPort : Prop :=
  decode [0xE2] = .instr .ldPortCA [] ∧ FetchFailures .ldPortCA ∧
  ∀ (s : State) (ea : Addr), ea.toNat = 0xFF00 + s.regs.c.toNat →
    (ownerOf s.banks ea = none →
      exec .ldPortCA s = .next { s with latch := ⟨true, .unmappedAddress, ea, s.pc⟩ }) ∧
    (∀ b, ownerOf s.banks ea = some b → b.perm = .readOnly →
      exec .ldPortCA s = .next { s with latch := ⟨true, .permissionDenied, ea, s.pc⟩ }) ∧
    (∀ b, ownerOf s.banks ea = some b → b.perm = .readWrite →
      exec .ldPortCA s = .next { s.storeAt b s.regs.a ea with pc := s.pc + 1, cyc := s.cyc + 8 })

/-! ### The ALU -/

/-- R195, with the addition function of R193: `ADD A,s`, all nine rows. -/
def Obligations.AddAccumulator : Prop :=
  AccEffect .add fun s v =>
    let sum := s.regs.a.toNat + v.toNat
    writeAccFlags s (BitVec.ofNat 8 (sum % 256))
      (flagByte (decide (sum % 256 = 0)) false (decide (s.regs.a.toNat % 16 + v.toNat % 16 > 15)) (decide (sum > 255)))

/-- R196, with the addition function of R193: `ADC A,s`, all nine rows; the carry read is bit 4 of F. -/
def Obligations.AddWithCarryAccumulator : Prop :=
  AccEffect .adc fun s v =>
    let sum := s.regs.a.toNat + v.toNat + carryBit s
    writeAccFlags s (BitVec.ofNat 8 (sum % 256))
      (flagByte (decide (sum % 256 = 0)) false (decide (s.regs.a.toNat % 16 + v.toNat % 16 + carryBit s > 15))
        (decide (sum > 255)))

/-- R197, with the subtraction function of R194: `SUB s`, all nine rows. -/
def Obligations.SubtractAccumulator : Prop :=
  AccEffect .sub fun s v =>
    let r : Int := ((s.regs.a.toNat : Int) - v.toNat) % 256
    writeAccFlags s (BitVec.ofNat 8 r.toNat)
      (flagByte (decide (r = 0)) true (decide (s.regs.a.toNat % 16 < v.toNat % 16)) (decide (s.regs.a.toNat < v.toNat)))

/-- R198, with the subtraction function of R194: `SBC A,s`, all nine rows; the borrow read is bit 4 of F. -/
def Obligations.SubtractWithCarryAccumulator : Prop :=
  AccEffect .sbc fun s v =>
    let r : Int := ((s.regs.a.toNat : Int) - v.toNat - carryBit s) % 256
    writeAccFlags s (BitVec.ofNat 8 r.toNat)
      (flagByte (decide (r = 0)) true (decide (s.regs.a.toNat % 16 < v.toNat % 16 + carryBit s))
        (decide (s.regs.a.toNat < v.toNat + carryBit s)))

/-- R199: `AND s`, all nine rows; H is set. -/
def Obligations.AndAccumulator : Prop :=
  AccEffect .and fun s v =>
    writeAccFlags s (s.regs.a &&& v) (flagByte (decide (s.regs.a &&& v = 0)) false true false)

/-- R200: `XOR s`, all nine rows. -/
def Obligations.XorAccumulator : Prop :=
  AccEffect .xor fun s v =>
    writeAccFlags s (s.regs.a ^^^ v) (flagByte (decide (s.regs.a ^^^ v = 0)) false false false)

/-- R201: `OR s`, all nine rows. -/
def Obligations.OrAccumulator : Prop :=
  AccEffect .or fun s v =>
    writeAccFlags s (s.regs.a ||| v) (flagByte (decide (s.regs.a ||| v = 0)) false false false)

/-- R202: `CP s`, all nine rows: F alone is written; Z says A = v and C says A < v. -/
def Obligations.CompareAccumulator : Prop :=
  AccEffect .cp fun s v =>
    writeFlags s
      (flagByte (decide (s.regs.a = v)) true (decide (s.regs.a.toNat % 16 < v.toNat % 16))
        (decide (s.regs.a.toNat < v.toNat)))

/-- R203: `INC r`, all seven rows: bit 4 of F is kept. -/
def Obligations.IncrementRegister : Prop :=
  ∀ (i : Instr) (r : OpReg), i.form = .inc (.reg r) →
    decode [BitVec.ofNat 8 (0x04 + 8 * r.code)] = .instr i [] ∧ FetchFailures i ∧
    ∀ (s : State) (v : Nat), v = (s.get (opReg r)).toNat →
      exec i s = .next
        { (s.set (opReg r) (BitVec.ofNat 8 ((v + 1) % 256))).set .f
            (flagByte (decide ((v + 1) % 256 = 0)) false (decide (v % 16 = 15)) (decide (carryBit s = 1)))
          with pc := s.pc + 1, cyc := s.cyc + 4 }

/-- R205: `DEC r`, all seven rows: bit 4 of F is kept. -/
def Obligations.DecrementRegister : Prop :=
  ∀ (i : Instr) (r : OpReg), i.form = .dec (.reg r) →
    decode [BitVec.ofNat 8 (0x05 + 8 * r.code)] = .instr i [] ∧ FetchFailures i ∧
    ∀ (s : State) (v : Nat), v = (s.get (opReg r)).toNat →
      exec i s = .next
        { (s.set (opReg r) (BitVec.ofNat 8 ((v + 255) % 256))).set .f
            (flagByte (decide ((v + 255) % 256 = 0)) true (decide (v % 16 = 0)) (decide (carryBit s = 1)))
          with pc := s.pc + 1, cyc := s.cyc + 4 }

/-- R204: `INC (HL)`: a read, then a write at the same address; where the write is denied the read has been made and neither the
byte nor F changes. -/
def Obligations.IncrementAtHL : Prop :=
  decode [0x34] = .instr .incIndHL [] ∧ FetchFailures .incIndHL ∧
  ∀ (s : State) (ea : Addr), ea = wordOf s.regs.h s.regs.l →
    (ownerOf s.banks ea = none →
      exec .incIndHL s = .next { s with latch := ⟨true, .unmappedAddress, ea, s.pc⟩ }) ∧
    (∀ b, ownerOf s.banks ea = some b → b.perm = .readOnly →
      exec .incIndHL s = .next { s.noteRead b ea with latch := ⟨true, .permissionDenied, ea, s.pc⟩ }) ∧
    (∀ b v, ownerOf s.banks ea = some b → b.perm = .readWrite → v = (s.byteAt b ea).toNat →
      exec .incIndHL s = .next
        { ((s.noteRead b ea).storeAt b (BitVec.ofNat 8 ((v + 1) % 256)) ea).set .f
            (flagByte (decide ((v + 1) % 256 = 0)) false (decide (v % 16 = 15)) (decide (carryBit s = 1)))
          with pc := s.pc + 1, cyc := s.cyc + 12 })

/-- R206: `DEC (HL)`: a read, then a write at the same address; where the write is denied the read has been made and neither the
byte nor F changes. -/
def Obligations.DecrementAtHL : Prop :=
  decode [0x35] = .instr .decIndHL [] ∧ FetchFailures .decIndHL ∧
  ∀ (s : State) (ea : Addr), ea = wordOf s.regs.h s.regs.l →
    (ownerOf s.banks ea = none →
      exec .decIndHL s = .next { s with latch := ⟨true, .unmappedAddress, ea, s.pc⟩ }) ∧
    (∀ b, ownerOf s.banks ea = some b → b.perm = .readOnly →
      exec .decIndHL s = .next { s.noteRead b ea with latch := ⟨true, .permissionDenied, ea, s.pc⟩ }) ∧
    (∀ b v, ownerOf s.banks ea = some b → b.perm = .readWrite → v = (s.byteAt b ea).toNat →
      exec .decIndHL s = .next
        { ((s.noteRead b ea).storeAt b (BitVec.ofNat 8 ((v + 255) % 256)) ea).set .f
            (flagByte (decide ((v + 255) % 256 = 0)) true (decide (v % 16 = 0)) (decide (carryBit s = 1)))
          with pc := s.pc + 1, cyc := s.cyc + 12 })

/-! ### Frames, for all 166 instructions -/

/-- R31, R123: no instruction changes an 8-bit register but its destination and F. -/
def Obligations.FrameOfRegisters : Prop :=
  ∀ (i : Instr) (s t : State), exec i s = .next t →
    ∀ r : Reg, r ≠ .f → destReg i.form ≠ some r → t.get r = s.get r

/-- R30, R192: no instruction outside the ALU family changes F; one of that family that completes leaves bits 3 to 0 of F zero;
an increment or decrement keeps bit 4. -/
def Obligations.FrameOfFlags : Prop :=
  ∀ (i : Instr) (s t : State), exec i s = .next t →
    (writesFlags i.form = false → t.regs.f = s.regs.f) ∧
    (writesFlags i.form = true → t.latch.faulted = false → t.regs.f.toNat % 16 = 0) ∧
    (keepsCarry i.form = true → carryBit t = carryBit s)

/-- R123, R170: an instruction changes no byte of memory but the one at the address it stores to; one that stores nothing changes
none. -/
def Obligations.FrameOfMemory : Prop :=
  ∀ (i : Instr) (s t : State), exec i s = .next t →
    ∀ x : Nat, (∀ a, storeAddr s i.form = some a → x ≠ a.toNat) → Memory.read t.mem x = Memory.read s.mem x

/-- R27, R38, R228, R80: no instruction changes SP or the configuration; it leaves the latch alone or takes a failure, with pc and
the counter unchanged; and with no device bank no device sees anything. -/
def Obligations.FrameOfSpecialState : Prop :=
  ∀ (i : Instr) (s t : State), exec i s = .next t →
    t.sp = s.sp ∧ t.banks = s.banks ∧ t.resetPc = s.resetPc ∧
    (t.latch = s.latch ∨ (∃ k a, t.latch = ⟨true, k, a, s.pc⟩ ∧ t.pc = s.pc ∧ t.cyc = s.cyc ∧ t.regs = s.regs ∧ t.mem = s.mem)) ∧
    ((∀ b ∈ s.banks, b.kind = .storage) → t.events = s.events)
end

