-- ==== Sys2Proof/Laws/State.lean ====
section
/-! SUPPORT. One lemma per field per update of State, so that no later proof unfolds a record update; and the reads of the register
file after its writes. -/
namespace Sys2Proof.Machine

/-! ### set -/

@[simp] theorem State.set_regs (s : State) (r : Reg) (v : Byte) : (s.set r v).regs = s.regs.put v r := rfl

@[simp] theorem State.set_sp (s : State) (r : Reg) (v : Byte) : (s.set r v).sp = s.sp := rfl

@[simp] theorem State.set_pc (s : State) (r : Reg) (v : Byte) : (s.set r v).pc = s.pc := rfl

@[simp] theorem State.set_latch (s : State) (r : Reg) (v : Byte) : (s.set r v).latch = s.latch := rfl

@[simp] theorem State.set_cyc (s : State) (r : Reg) (v : Byte) : (s.set r v).cyc = s.cyc := rfl

@[simp] theorem State.set_mem (s : State) (r : Reg) (v : Byte) : (s.set r v).mem = s.mem := rfl

@[simp] theorem State.set_events (s : State) (r : Reg) (v : Byte) : (s.set r v).events = s.events := rfl

@[simp] theorem State.set_banks (s : State) (r : Reg) (v : Byte) : (s.set r v).banks = s.banks := rfl

@[simp] theorem State.set_resetPc (s : State) (r : Reg) (v : Byte) : (s.set r v).resetPc = s.resetPc := rfl

/-! ### raise -/

@[simp] theorem State.raise_regs (s : State) (k : FailureKind) (info : Addr) : (s.raise k info).regs = s.regs := rfl

@[simp] theorem State.raise_sp (s : State) (k : FailureKind) (info : Addr) : (s.raise k info).sp = s.sp := rfl

@[simp] theorem State.raise_pc (s : State) (k : FailureKind) (info : Addr) : (s.raise k info).pc = s.pc := rfl

@[simp] theorem State.raise_latch (s : State) (k : FailureKind) (info : Addr) : (s.raise k info).latch = ⟨true, k, info, s.pc⟩ := rfl

@[simp] theorem State.raise_cyc (s : State) (k : FailureKind) (info : Addr) : (s.raise k info).cyc = s.cyc := rfl

@[simp] theorem State.raise_mem (s : State) (k : FailureKind) (info : Addr) : (s.raise k info).mem = s.mem := rfl

@[simp] theorem State.raise_events (s : State) (k : FailureKind) (info : Addr) : (s.raise k info).events = s.events := rfl

@[simp] theorem State.raise_banks (s : State) (k : FailureKind) (info : Addr) : (s.raise k info).banks = s.banks := rfl

@[simp] theorem State.raise_resetPc (s : State) (k : FailureKind) (info : Addr) : (s.raise k info).resetPc = s.resetPc := rfl

/-! ### complete -/

@[simp] theorem State.complete_regs (s : State) (len cost : Nat) : (s.complete len cost).regs = s.regs := rfl

@[simp] theorem State.complete_sp (s : State) (len cost : Nat) : (s.complete len cost).sp = s.sp := rfl

@[simp] theorem State.complete_pc (s : State) (len cost : Nat) : (s.complete len cost).pc = s.pc + BitVec.ofNat 16 len := rfl

@[simp] theorem State.complete_latch (s : State) (len cost : Nat) : (s.complete len cost).latch = s.latch := rfl

@[simp] theorem State.complete_cyc (s : State) (len cost : Nat) : (s.complete len cost).cyc = s.cyc + cost := rfl

@[simp] theorem State.complete_mem (s : State) (len cost : Nat) : (s.complete len cost).mem = s.mem := rfl

@[simp] theorem State.complete_events (s : State) (len cost : Nat) : (s.complete len cost).events = s.events := rfl

@[simp] theorem State.complete_banks (s : State) (len cost : Nat) : (s.complete len cost).banks = s.banks := rfl

@[simp] theorem State.complete_resetPc (s : State) (len cost : Nat) : (s.complete len cost).resetPc = s.resetPc := rfl

/-! ### hostReset -/

@[simp] theorem State.hostReset_regs (s : State) : (s.hostReset).regs = s.regs := rfl

@[simp] theorem State.hostReset_sp (s : State) : (s.hostReset).sp = s.sp := rfl

@[simp] theorem State.hostReset_pc (s : State) : (s.hostReset).pc = s.resetPc := rfl

@[simp] theorem State.hostReset_latch (s : State) : (s.hostReset).latch = Latch.clear := rfl

@[simp] theorem State.hostReset_cyc (s : State) : (s.hostReset).cyc = 0 := rfl

@[simp] theorem State.hostReset_mem (s : State) : (s.hostReset).mem = s.mem := rfl

@[simp] theorem State.hostReset_events (s : State) : (s.hostReset).events = s.events := rfl

@[simp] theorem State.hostReset_banks (s : State) : (s.hostReset).banks = s.banks := rfl

@[simp] theorem State.hostReset_resetPc (s : State) : (s.hostReset).resetPc = s.resetPc := rfl

/-! ### noteRead -/

@[simp] theorem State.noteRead_regs (s : State) (b : Bank) (a : Addr) : (s.noteRead b a).regs = s.regs := by
  unfold State.noteRead; split <;> rfl

@[simp] theorem State.noteRead_sp (s : State) (b : Bank) (a : Addr) : (s.noteRead b a).sp = s.sp := by
  unfold State.noteRead; split <;> rfl

@[simp] theorem State.noteRead_pc (s : State) (b : Bank) (a : Addr) : (s.noteRead b a).pc = s.pc := by
  unfold State.noteRead; split <;> rfl

@[simp] theorem State.noteRead_latch (s : State) (b : Bank) (a : Addr) : (s.noteRead b a).latch = s.latch := by
  unfold State.noteRead; split <;> rfl

@[simp] theorem State.noteRead_cyc (s : State) (b : Bank) (a : Addr) : (s.noteRead b a).cyc = s.cyc := by
  unfold State.noteRead; split <;> rfl

@[simp] theorem State.noteRead_mem (s : State) (b : Bank) (a : Addr) : (s.noteRead b a).mem = s.mem := by
  unfold State.noteRead; split <;> rfl

@[simp] theorem State.noteRead_banks (s : State) (b : Bank) (a : Addr) : (s.noteRead b a).banks = s.banks := by
  unfold State.noteRead; split <;> rfl

@[simp] theorem State.noteRead_resetPc (s : State) (b : Bank) (a : Addr) : (s.noteRead b a).resetPc = s.resetPc := by
  unfold State.noteRead; split <;> rfl

/-! ### storeAt -/

@[simp] theorem State.storeAt_regs (s : State) (b : Bank) (v : Byte) (a : Addr) : (s.storeAt b v a).regs = s.regs := by
  unfold State.storeAt; split <;> rfl

@[simp] theorem State.storeAt_sp (s : State) (b : Bank) (v : Byte) (a : Addr) : (s.storeAt b v a).sp = s.sp := by
  unfold State.storeAt; split <;> rfl

@[simp] theorem State.storeAt_pc (s : State) (b : Bank) (v : Byte) (a : Addr) : (s.storeAt b v a).pc = s.pc := by
  unfold State.storeAt; split <;> rfl

@[simp] theorem State.storeAt_latch (s : State) (b : Bank) (v : Byte) (a : Addr) : (s.storeAt b v a).latch = s.latch := by
  unfold State.storeAt; split <;> rfl

@[simp] theorem State.storeAt_cyc (s : State) (b : Bank) (v : Byte) (a : Addr) : (s.storeAt b v a).cyc = s.cyc := by
  unfold State.storeAt; split <;> rfl

@[simp] theorem State.storeAt_banks (s : State) (b : Bank) (v : Byte) (a : Addr) : (s.storeAt b v a).banks = s.banks := by
  unfold State.storeAt; split <;> rfl

@[simp] theorem State.storeAt_resetPc (s : State) (b : Bank) (v : Byte) (a : Addr) : (s.storeAt b v a).resetPc = s.resetPc := by
  unfold State.storeAt; split <;> rfl

/-! ### setExt -/

@[simp] theorem State.setExt_latch (s : State) (v : Addr) (p : ExtReg) : (s.setExt v p).latch = s.latch := by
  cases p <;> rfl

@[simp] theorem State.setExt_cyc (s : State) (v : Addr) (p : ExtReg) : (s.setExt v p).cyc = s.cyc := by
  cases p <;> rfl

@[simp] theorem State.setExt_mem (s : State) (v : Addr) (p : ExtReg) : (s.setExt v p).mem = s.mem := by
  cases p <;> rfl

@[simp] theorem State.setExt_events (s : State) (v : Addr) (p : ExtReg) : (s.setExt v p).events = s.events := by
  cases p <;> rfl

@[simp] theorem State.setExt_banks (s : State) (v : Addr) (p : ExtReg) : (s.setExt v p).banks = s.banks := by
  cases p <;> rfl

@[simp] theorem State.setExt_resetPc (s : State) (v : Addr) (p : ExtReg) : (s.setExt v p).resetPc = s.resetPc := by
  cases p <;> rfl

/-! ### The register file -/

@[simp] theorem State.get_set_same (s : State) (r : Reg) (v : Byte) : (s.set r v).get r = v := by
  cases r <;> rfl

theorem State.get_set_other (s : State) {r r' : Reg} (v : Byte) (h : r' ≠ r) : (s.set r v).get r' = s.get r' := by
  cases r <;> cases r' <;> first | rfl | exact absurd rfl h

@[simp] theorem State.get_raise (s : State) (k : FailureKind) (info : Addr) (r : Reg) :
    (s.raise k info).get r = s.get r := by
  cases r <;> rfl

@[simp] theorem State.get_complete (s : State) (len cost : Nat) (r : Reg) : (s.complete len cost).get r = s.get r := by
  cases r <;> rfl

@[simp] theorem State.get_noteRead (s : State) (b : Bank) (a : Addr) (r : Reg) : (s.noteRead b a).get r = s.get r := by
  cases r <;> simp [State.get]

@[simp] theorem State.get_storeAt (s : State) (b : Bank) (v : Byte) (a : Addr) (r : Reg) :
    (s.storeAt b v a).get r = s.get r := by
  cases r <;> simp [State.get]

@[simp] theorem State.getExt_noteRead (s : State) (b : Bank) (a : Addr) (p : ExtReg) :
    (s.noteRead b a).getExt p = s.getExt p := by
  cases p <;> simp [State.getExt]

@[simp] theorem State.portAddr_noteRead (s : State) (b : Bank) (a base : Addr) (o : Reg) :
    (s.noteRead b a).portAddr o base = s.portAddr o base := by
  simp [State.portAddr]

theorem hiByte_wordOf (hi lo : Byte) : hiByte (wordOf hi lo) = hi := by
  apply BitVec.eq_of_toNat_eq
  have := hi.isLt
  have := lo.isLt
  simp only [hiByte, wordOf, BitVec.toNat_ofNat]
  omega

theorem loByte_wordOf (hi lo : Byte) : loByte (wordOf hi lo) = lo := by
  apply BitVec.eq_of_toNat_eq
  have := hi.isLt
  have := lo.isLt
  simp only [loByte, wordOf, BitVec.toNat_ofNat]
  omega

theorem wordOf_hiByte_loByte (w : Addr) : wordOf (hiByte w) (loByte w) = w := by
  apply BitVec.eq_of_toNat_eq
  have := w.isLt
  simp only [hiByte, loByte, wordOf, BitVec.toNat_ofNat]
  omega

end Sys2Proof.Machine
end

