-- ==== Sys2Proof/Laws/Access.lean ====
section
/-! SUPPORT. What the shared operations can do: an access through the address space, the end of a step. -/
namespace Sys2Proof.Machine

@[simp] theorem Access.andThen_ok {α β : Type} (v : α) (s : State) (f : α → State → Access β) :
    (Access.ok v s).andThen f = f v s := rfl

@[simp] theorem Access.andThen_failed {α β : Type} (k : FailureKind) (info : Addr) (s : State) (f : α → State → Access β) :
    (Access.failed k info s : Access α).andThen f = .failed k info s := rfl

@[simp] theorem settle_ok (len cost : Nat) (s : State) : settle len cost (.ok () s) = .next (s.complete len cost) := rfl

@[simp] theorem settle_failed (len cost : Nat) (k : FailureKind) (info : Addr) (s : State) :
    settle len cost (.failed k info s) = .next (s.raise k info) := rfl

/-- A step's end is always a next state: completed, or with the failure taken (R127, R228). -/
theorem settle_next {len cost : Nat} {x : Access Unit} {t : State} (h : settle len cost x = .next t) :
    (∃ s, x = .ok () s ∧ t = s.complete len cost) ∨ (∃ k info s, x = .failed k info s ∧ t = s.raise k info) := by
  cases x with
  | ok v s => exact Or.inl ⟨s, rfl, by cases h; rfl⟩
  | failed k info s => exact Or.inr ⟨k, info, s, rfl, by cases h; rfl⟩

/-- The bank a lookup finds owns the address. -/
theorem owns_of_ownerOf {banks : List Bank} {a : Addr} {b : Bank} (h : ownerOf banks a = some b) : b.owns a.toNat = true := by
  have := List.find?_some (p := fun b : Bank => b.owns a.toNat) h
  exact this

/-- `MemRead` at an unmapped address fails, and has no effect (R62). -/
theorem State.memRead_none {s : State} {a : Addr} (h : ownerOf s.banks a = none) :
    s.memRead a = .failed .unmappedAddress a s := by
  simp [State.memRead, h]

/-- `MemRead` at a mapped address never fails (R62). -/
theorem State.memRead_some {s : State} {a : Addr} {b : Bank} (h : ownerOf s.banks a = some b) :
    s.memRead a = .ok (s.byteAt b a) (s.noteRead b a) := by
  simp [State.memRead, h, State.bankRead, owns_of_ownerOf h]

/-- `MemRead` answers a byte or fails with `UnmappedAddress`; nothing else. -/
theorem State.memRead_cases (s : State) (a : Addr) :
    (ownerOf s.banks a = none ∧ s.memRead a = .failed .unmappedAddress a s) ∨
      (∃ b, ownerOf s.banks a = some b ∧ s.memRead a = .ok (s.byteAt b a) (s.noteRead b a)) := by
  cases h : ownerOf s.banks a with
  | none => exact Or.inl ⟨rfl, State.memRead_none h⟩
  | some b => exact Or.inr ⟨b, rfl, State.memRead_some h⟩

/-- `MemWrite` at an unmapped address fails, and has no effect (R63). -/
theorem State.memWrite_none {s : State} {a : Addr} {v : Byte} (h : ownerOf s.banks a = none) :
    s.memWrite a v = .failed .unmappedAddress a s := by
  simp [State.memWrite, h]

/-- `MemWrite` into a read-only bank fails, and has no effect (R63). -/
theorem State.memWrite_readOnly {s : State} {a : Addr} {v : Byte} {b : Bank} (h : ownerOf s.banks a = some b)
    (hp : b.perm = .readOnly) : s.memWrite a v = .failed .permissionDenied a s := by
  simp [State.memWrite, h, State.bankWrite, owns_of_ownerOf h, hp]

/-- `MemWrite` into a read-write bank succeeds (R63). -/
theorem State.memWrite_readWrite {s : State} {a : Addr} {v : Byte} {b : Bank} (h : ownerOf s.banks a = some b)
    (hp : b.perm = .readWrite) : s.memWrite a v = .ok () (s.storeAt b v a) := by
  simp [State.memWrite, h, State.bankWrite, owns_of_ownerOf h, hp]

/-- `MemWrite` stores, or fails with `UnmappedAddress` or `PermissionDenied`; nothing else. -/
theorem State.memWrite_cases (s : State) (a : Addr) (v : Byte) :
    (ownerOf s.banks a = none ∧ s.memWrite a v = .failed .unmappedAddress a s) ∨
      (∃ b, ownerOf s.banks a = some b ∧ b.perm = .readOnly ∧ s.memWrite a v = .failed .permissionDenied a s) ∨
      (∃ b, ownerOf s.banks a = some b ∧ b.perm = .readWrite ∧ s.memWrite a v = .ok () (s.storeAt b v a)) := by
  cases h : ownerOf s.banks a with
  | none => exact Or.inl ⟨rfl, State.memWrite_none h⟩
  | some b =>
    cases hp : b.perm with
    | readOnly => exact Or.inr (Or.inl ⟨b, rfl, hp, State.memWrite_readOnly h hp⟩)
    | readWrite => exact Or.inr (Or.inr ⟨b, rfl, hp, State.memWrite_readWrite h hp⟩)

/-- The byte an in-range write leaves alone. -/
theorem State.read_storeAt_other (s : State) (b : Bank) (v : Byte) {a : Addr} {x : Nat} (h : x ≠ a.toNat) :
    Memory.read (s.storeAt b v a).mem x = Memory.read s.mem x := by
  unfold State.storeAt
  split
  · exact Memory.read_write_other _ _ h
  · rfl

end Sys2Proof.Machine
end

