-- ==== Sys2Proof/Laws/Boot.lean ====
section
/-! SUPPORT. The stages of a configuration: their equations, and what a boot that succeeds went through. -/
namespace Sys2Proof.Machine

variable {α β : Type} {f : α → β → Except ConfigFailure α}

@[simp] theorem inOrder_nil (a : α) : inOrder f a [] = .ok a := rfl

theorem inOrder_cons (a : α) (b : β) (bs : List β) : inOrder f a (b :: bs) = (f a b).bind fun a' => inOrder f a' bs := by
  rw [inOrder]; cases f a b <;> rfl

/-- A stage that succeeds did its first part and then the others. -/
theorem inOrder_cons_ok {a c : α} {b : β} {bs : List β} :
    inOrder f a (b :: bs) = .ok c ↔ ∃ a', f a b = .ok a' ∧ inOrder f a' bs = .ok c := by
  rw [inOrder_cons]; cases f a b <;> simp [Except.bind]

/-- Constructing a bank loads its image or leaves the state, and the bank is well-formed. -/
theorem State.constructBank_ok {s t : State} {x : BankInit} (h : s.constructBank x = .ok t) :
    x.bank.wellFormed = true ∧
      ((x.bank.perm = .readOnly ∧ s.loadBank x = .ok t) ∨ (x.bank.perm = .readWrite ∧ t = s)) := by
  unfold State.constructBank at h
  split at h
  · next hw =>
    refine ⟨hw, ?_⟩
    cases hp : x.bank.perm <;> rw [hp] at h
    · cases h; exact Or.inr ⟨rfl, rfl⟩
    · exact Or.inl ⟨rfl, h⟩
  · cases h

/-- Filling a bank loads its image or leaves the state. -/
theorem State.fillBank_ok {s t : State} {x : BankInit} (h : s.fillBank x = .ok t) :
    (x.bank.perm = .readWrite ∧ s.loadBank x = .ok t) ∨ (x.bank.perm = .readOnly ∧ t = s) := by
  unfold State.fillBank at h
  cases hp : x.bank.perm <;> rw [hp] at h
  · exact Or.inl ⟨rfl, h⟩
  · cases h; exact Or.inr ⟨rfl, rfl⟩

/-- A boot of banks that succeeds went through the stages of R252, in order. -/
theorem setUpBanks_ok {inits : List BankInit} {resetPc : Addr} {regs : Regs} {sp : Addr} {s : State}
    (h : setUpBanks inits resetPc regs sp = .ok s) :
    ∃ constructed banks filled,
      inOrder State.constructBank ⟨regs, sp, resetPc, Latch.clear, 0, [], [], [], resetPc⟩ inits = .ok constructed ∧
      registerBanks [] (inits.map BankInit.bank) = .ok banks ∧
      inOrder State.fillBank { constructed with banks := banks } inits = .ok filled ∧ s = filled.hostReset := by
  unfold setUpBanks at h
  cases h1 : inOrder State.constructBank ⟨regs, sp, resetPc, Latch.clear, 0, [], [], [], resetPc⟩ inits with
  | error e => rw [h1] at h; cases h
  | ok constructed =>
    cases h2 : registerBanks [] (inits.map BankInit.bank) with
    | error e => rw [h1, h2] at h; cases h
    | ok banks =>
      cases h3 : inOrder State.fillBank { constructed with banks := banks } inits with
      | error e => rw [h1, h2] at h; simp only [Except.bind, h3] at h; cases h
      | ok filled => rw [h1, h2] at h; simp only [Except.bind, h3] at h; cases h; exact ⟨_, _, _, rfl, rfl, h3, rfl⟩

end Sys2Proof.Machine
end

