-- ==== Sys2Proof/Laws/Exec.lean ====
section
/-! SUPPORT. The meanings by family: what `exec` does depends on the form of the instruction alone. A proof about all 166 rows
cites `exec_eq_execForm` and splits the forms. -/
namespace Sys2Proof.Machine

/-- What an accumulator operation does with its right operand. -/
def accOp : AluOp → State → Byte → State
  | .add => State.addAcc
  | .adc => State.adcAcc
  | .sub => State.subAcc
  | .sbc => State.sbcAcc
  | .and => State.andAcc
  | .xor => State.xorAcc
  | .or  => State.orAcc
  | .cp  => State.cpAcc

/-- What a form does, before the step is settled. -/
def bodyOf (s : State) : Form → Access Unit
  | .ldRegReg dst src => s.loadFromRegister (opReg src) (opReg dst)
  | .ldRegImm dst n   => s.loadFromValue (opReg dst) n
  | .ldRegInd dst     => s.loadFromAddress (opReg dst) .hl
  | .ldAccPair p      => s.loadFromAddress .a (accPair p)
  | .ldAccAbs nn      => s.loadFromAbsolute .a nn
  | .ldAccPort        => s.loadFromPort .a .c Config.portBase
  | .ldIndReg src     => s.putToAddress (opReg src) .hl
  | .ldPairAcc p      => s.putToAddress .a (accPair p)
  | .ldAbsAcc nn      => s.putToAbsolute .a nn
  | .ldPortAcc        => s.putToPort .a .c Config.portBase
  | .alu op (.reg r)  => s.aluReg (accOp op) (opReg r)
  | .alu op .indHL    => s.aluIndHL (accOp op)
  | .alu op (.imm n)  => s.aluImm (accOp op) n
  | .inc (.reg r)     => s.incReg (opReg r)
  | .inc .indHL       => s.incIndHL
  | .dec (.reg r)     => s.decReg (opReg r)
  | .dec .indHL       => s.decIndHL

/-- Every meaning is its form's body, settled with the form's length and cost. -/
theorem exec_eq_execForm (i : Instr) (s : State) :
    exec i s = settle (1 + i.form.operands.length) i.form.cost (bodyOf s i.form) := by
  cases i <;> rfl

/-- A fetch answers the state it found, but for what devices have seen. -/
theorem State.fetchByte_cases (s : State) (k : Nat) :
    (ownerOf s.banks (s.pc + BitVec.ofNat 16 k) = none ∧
        s.fetchByte k = .failed .unmappedAddress (s.pc + BitVec.ofNat 16 k) s) ∨
      (∃ b, ownerOf s.banks (s.pc + BitVec.ofNat 16 k) = some b ∧
        s.fetchByte k = .ok (s.byteAt b (s.pc + BitVec.ofNat 16 k)) (s.noteRead b (s.pc + BitVec.ofNat 16 k))) :=
  s.memRead_cases _

end Sys2Proof.Machine
end

