-- ==== Sys2Proof/Laws/Fetch.lean ====
section
/-! SUPPORT. What a lookup and a fetch can answer, and that every operation over memory keeps its canonical form. -/
namespace Sys2Proof.Machine

/-- The bank a lookup finds is one of the banks. -/
theorem mem_of_ownerOf {banks : List Bank} {a : Addr} {b : Bank} (h : ownerOf banks a = some b) : b ∈ banks := by
  unfold ownerOf at h
  exact List.mem_of_find?_eq_some h

/-- One state follows another by reads alone: they differ only in what devices have seen, earlier events stay, and without a device
bank there is no difference. -/
structure ReadsOnly (s t : State) : Prop where
  eq      : t = { s with events := t.events }
  suffix  : s.events <:+ t.events
  storage : (∀ b ∈ s.banks, b.kind = .storage) → t.events = s.events

theorem ReadsOnly.refl (s : State) : ReadsOnly s s := ⟨rfl, List.suffix_refl _, fun _ => rfl⟩

theorem ReadsOnly.banks {s t : State} (h : ReadsOnly s t) : t.banks = s.banks := by rw [h.eq]

theorem ReadsOnly.trans {s t u : State} (h : ReadsOnly s t) (k : ReadsOnly t u) : ReadsOnly s u := by
  refine ⟨?_, h.suffix.trans k.suffix, fun hb => ?_⟩
  · rw [k.eq, h.eq]
  · rw [k.storage (by rw [h.banks]; exact hb), h.storage hb]

theorem readsOnly_noteRead {s : State} {b : Bank} {a : Addr} (hb : b ∈ s.banks) : ReadsOnly s (s.noteRead b a) := by
  unfold State.noteRead
  cases hk : b.kind with
  | storage => exact ReadsOnly.refl s
  | device => exact ⟨rfl, List.suffix_cons _ _, fun h => absurd (h b hb) (by simp [hk])⟩

/-- A fetch answers an instruction, having only read; or it fails with `UnmappedAddress` of an unmapped address, or with
`UndefinedOpcode` of an opcode that has no entry. -/
theorem State.fetch_cases (s : State) :
    (∃ i t, s.fetch = .ok i t ∧ ReadsOnly s t) ∨
      (∃ a t, s.fetch = .failed .unmappedAddress a t ∧ ReadsOnly s t ∧ ownerOf s.banks a = none) ∨
      (∃ op t, s.fetch = .failed .undefinedOpcode (BitVec.ofNat 16 op.toNat) t ∧ ReadsOnly s t ∧ lookupOpcode op = none) := by
  unfold State.fetch State.fetchByte
  rcases s.memRead_cases (s.pc + BitVec.ofNat 16 0) with ⟨hn, e⟩ | ⟨b, hb, e⟩ <;> rw [e]
  · exact Or.inr (Or.inl ⟨_, _, rfl, ReadsOnly.refl s, hn⟩)
  have hs := readsOnly_noteRead (a := s.pc + BitVec.ofNat 16 0) (mem_of_ownerOf hb)
  rw [Access.andThen_ok]
  generalize s.byteAt b _ = op
  generalize s.noteRead b _ = t at hs
  cases hl : lookupOpcode op with
  | none => exact Or.inr (Or.inr ⟨op, t, rfl, hs, hl⟩)
  | some layout =>
    cases layout with
    | s i => exact Or.inl ⟨i, t, rfl, hs⟩
    | i f =>
      dsimp only
      rcases t.memRead_cases (t.pc + BitVec.ofNat 16 1) with ⟨hn, e⟩ | ⟨b, hb, e⟩ <;> rw [e]
      · exact Or.inr (Or.inl ⟨_, _, rfl, hs, by rw [hs.banks] at hn; exact hn⟩)
      · exact Or.inl ⟨_, _, rfl, hs.trans (readsOnly_noteRead (mem_of_ownerOf hb))⟩
    | w f =>
      dsimp only
      rcases t.memRead_cases (t.pc + BitVec.ofNat 16 1) with ⟨hn, e⟩ | ⟨b, hb, e⟩ <;> rw [e]
      · exact Or.inr (Or.inl ⟨_, _, rfl, hs, by rw [hs.banks] at hn; exact hn⟩)
      have hs2 := hs.trans (readsOnly_noteRead (a := t.pc + BitVec.ofNat 16 1) (mem_of_ownerOf hb))
      rw [Access.andThen_ok]
      generalize t.noteRead b _ = u at hs2
      rcases u.memRead_cases (u.pc + BitVec.ofNat 16 2) with ⟨hn, e⟩ | ⟨b, hb, e⟩ <;> rw [e]
      · exact Or.inr (Or.inl ⟨_, _, rfl, hs2, by rw [hs2.banks] at hn; exact hn⟩)
      · exact Or.inl ⟨_, _, rfl, hs2.trans (readsOnly_noteRead (mem_of_ownerOf hb))⟩

/-- A step answers `coreFaulted` alone where the latch is set; else it is the fetched instruction's meaning, or the failure of the
fetch taken. -/
theorem step_def (s : State) :
    (s.latch.faulted = true ∧ step s = .fault .coreFaulted) ∨
      (s.latch.faulted = false ∧ ∃ i t, s.fetch = .ok i t ∧ step s = exec i t) ∨
      (s.latch.faulted = false ∧ ∃ k a t, s.fetch = .failed k a t ∧ step s = .next (t.raise k a)) := by
  unfold step
  cases hf : s.latch.faulted with
  | true => exact Or.inl ⟨rfl, rfl⟩
  | false =>
    right
    cases s.fetch with
    | ok i t => exact Or.inl ⟨rfl, i, t, rfl, rfl⟩
    | failed k a t => exact Or.inr ⟨rfl, k, a, t, rfl, rfl⟩

/-! ### The canonical form of memory -/

theorem reset_mem_wf : Memory.wf State.reset.mem = true := rfl

theorem State.wf_storeAt {s : State} (b : Bank) (v : Byte) (a : Addr) (h : Memory.wf s.mem = true) :
    Memory.wf (s.storeAt b v a).mem = true := by
  unfold State.storeAt
  split
  · exact Memory.wf_write a v h
  · exact h

theorem State.wf_storeSpan {s : State} (b : Bank) (vs : List Byte) (a : Addr) (h : Memory.wf s.mem = true) :
    Memory.wf (s.storeSpan b vs a).mem = true := by
  induction vs generalizing s a with
  | nil => exact h
  | cons v vs ih => exact ih (a + 1) (State.wf_storeAt b v a h)

theorem State.wf_placeBytes {s : State} (a : Addr) (vs : List Byte) (h : Memory.wf s.mem = true) :
    Memory.wf (s.placeBytes a vs).mem = true := by
  induction vs generalizing s a with
  | nil => exact h
  | cons v vs ih => exact ih (a + 1) (Memory.wf_write a v h)

theorem State.wf_memWrite {s t : State} {a : Addr} {v : Byte} (h : Memory.wf s.mem = true) (e : s.memWrite a v = .ok () t) :
    Memory.wf t.mem = true := by
  rcases s.memWrite_cases a v with ⟨_, e'⟩ | ⟨_, _, _, e'⟩ | ⟨b, _, _, e'⟩ <;> rw [e'] at e <;> cases e
  exact State.wf_storeAt b v a h

end Sys2Proof.Machine
end

