-- ==== Sys2Proof/Laws/PerInstr.lean ====
section
/-! SUPPORT. The family OpcodeRow: every instruction has a row in the dispatch table under its own opcode, and that row's format
has the instruction's length (R90, R109, R121). -/
namespace Sys2Proof.Laws.OpcodeRow

/-- The table has an entry for the instruction's opcode, and its format has the instruction's length. -/
def Statement (i : Instr) : Prop := (lookupOpcode i.opcode).map Layout.len = some i.len

theorem ldIndBCA : Statement .ldIndBCA := rfl
theorem incB : Statement .incB := rfl
theorem decB : Statement .decB := rfl
theorem ldBImm (n : Byte) : Statement (.ldBImm n) := rfl
theorem ldAIndBC : Statement .ldAIndBC := rfl
theorem incC : Statement .incC := rfl
theorem decC : Statement .decC := rfl
theorem ldCImm (n : Byte) : Statement (.ldCImm n) := rfl
theorem ldIndDEA : Statement .ldIndDEA := rfl
theorem incD : Statement .incD := rfl
theorem decD : Statement .decD := rfl
theorem ldDImm (n : Byte) : Statement (.ldDImm n) := rfl
theorem ldAIndDE : Statement .ldAIndDE := rfl
theorem incE : Statement .incE := rfl
theorem decE : Statement .decE := rfl
theorem ldEImm (n : Byte) : Statement (.ldEImm n) := rfl
theorem incH : Statement .incH := rfl
theorem decH : Statement .decH := rfl
theorem ldHImm (n : Byte) : Statement (.ldHImm n) := rfl
theorem incL : Statement .incL := rfl
theorem decL : Statement .decL := rfl
theorem ldLImm (n : Byte) : Statement (.ldLImm n) := rfl
theorem incIndHL : Statement .incIndHL := rfl
theorem decIndHL : Statement .decIndHL := rfl
theorem incA : Statement .incA := rfl
theorem decA : Statement .decA := rfl
theorem ldAImm (n : Byte) : Statement (.ldAImm n) := rfl
theorem ldBB : Statement .ldBB := rfl
theorem ldBC : Statement .ldBC := rfl
theorem ldBD : Statement .ldBD := rfl
theorem ldBE : Statement .ldBE := rfl
theorem ldBH : Statement .ldBH := rfl
theorem ldBL : Statement .ldBL := rfl
theorem ldBIndHL : Statement .ldBIndHL := rfl
theorem ldBA : Statement .ldBA := rfl
theorem ldCB : Statement .ldCB := rfl
theorem ldCC : Statement .ldCC := rfl
theorem ldCD : Statement .ldCD := rfl
theorem ldCE : Statement .ldCE := rfl
theorem ldCH : Statement .ldCH := rfl
theorem ldCL : Statement .ldCL := rfl
theorem ldCIndHL : Statement .ldCIndHL := rfl
theorem ldCA : Statement .ldCA := rfl
theorem ldDB : Statement .ldDB := rfl
theorem ldDC : Statement .ldDC := rfl
theorem ldDD : Statement .ldDD := rfl
theorem ldDE : Statement .ldDE := rfl
theorem ldDH : Statement .ldDH := rfl
theorem ldDL : Statement .ldDL := rfl
theorem ldDIndHL : Statement .ldDIndHL := rfl
theorem ldDA : Statement .ldDA := rfl
theorem ldEB : Statement .ldEB := rfl
theorem ldEC : Statement .ldEC := rfl
theorem ldED : Statement .ldED := rfl
theorem ldEE : Statement .ldEE := rfl
theorem ldEH : Statement .ldEH := rfl
theorem ldEL : Statement .ldEL := rfl
theorem ldEIndHL : Statement .ldEIndHL := rfl
theorem ldEA : Statement .ldEA := rfl
theorem ldHB : Statement .ldHB := rfl
theorem ldHC : Statement .ldHC := rfl
theorem ldHD : Statement .ldHD := rfl
theorem ldHE : Statement .ldHE := rfl
theorem ldHH : Statement .ldHH := rfl
theorem ldHL : Statement .ldHL := rfl
theorem ldHIndHL : Statement .ldHIndHL := rfl
theorem ldHA : Statement .ldHA := rfl
theorem ldLB : Statement .ldLB := rfl
theorem ldLC : Statement .ldLC := rfl
theorem ldLD : Statement .ldLD := rfl
theorem ldLE : Statement .ldLE := rfl
theorem ldLH : Statement .ldLH := rfl
theorem ldLL : Statement .ldLL := rfl
theorem ldLIndHL : Statement .ldLIndHL := rfl
theorem ldLA : Statement .ldLA := rfl
theorem ldIndHLB : Statement .ldIndHLB := rfl
theorem ldIndHLC : Statement .ldIndHLC := rfl
theorem ldIndHLD : Statement .ldIndHLD := rfl
theorem ldIndHLE : Statement .ldIndHLE := rfl
theorem ldIndHLH : Statement .ldIndHLH := rfl
theorem ldIndHLL : Statement .ldIndHLL := rfl
theorem ldIndHLA : Statement .ldIndHLA := rfl
theorem ldAB : Statement .ldAB := rfl
theorem ldAC : Statement .ldAC := rfl
theorem ldAD : Statement .ldAD := rfl
theorem ldAE : Statement .ldAE := rfl
theorem ldAH : Statement .ldAH := rfl
theorem ldAL : Statement .ldAL := rfl
theorem ldAIndHL : Statement .ldAIndHL := rfl
theorem ldAA : Statement .ldAA := rfl
theorem addAB : Statement .addAB := rfl
theorem addAC : Statement .addAC := rfl
theorem addAD : Statement .addAD := rfl
theorem addAE : Statement .addAE := rfl
theorem addAH : Statement .addAH := rfl
theorem addAL : Statement .addAL := rfl
theorem addAIndHL : Statement .addAIndHL := rfl
theorem addAA : Statement .addAA := rfl
theorem adcAB : Statement .adcAB := rfl
theorem adcAC : Statement .adcAC := rfl
theorem adcAD : Statement .adcAD := rfl
theorem adcAE : Statement .adcAE := rfl
theorem adcAH : Statement .adcAH := rfl
theorem adcAL : Statement .adcAL := rfl
theorem adcAIndHL : Statement .adcAIndHL := rfl
theorem adcAA : Statement .adcAA := rfl
theorem subB : Statement .subB := rfl
theorem subC : Statement .subC := rfl
theorem subD : Statement .subD := rfl
theorem subE : Statement .subE := rfl
theorem subH : Statement .subH := rfl
theorem subL : Statement .subL := rfl
theorem subIndHL : Statement .subIndHL := rfl
theorem subA : Statement .subA := rfl
theorem sbcAB : Statement .sbcAB := rfl
theorem sbcAC : Statement .sbcAC := rfl
theorem sbcAD : Statement .sbcAD := rfl
theorem sbcAE : Statement .sbcAE := rfl
theorem sbcAH : Statement .sbcAH := rfl
theorem sbcAL : Statement .sbcAL := rfl
theorem sbcAIndHL : Statement .sbcAIndHL := rfl
theorem sbcAA : Statement .sbcAA := rfl
theorem andB : Statement .andB := rfl
theorem andC : Statement .andC := rfl
theorem andD : Statement .andD := rfl
theorem andE : Statement .andE := rfl
theorem andH : Statement .andH := rfl
theorem andL : Statement .andL := rfl
theorem andIndHL : Statement .andIndHL := rfl
theorem andA : Statement .andA := rfl
theorem xorB : Statement .xorB := rfl
theorem xorC : Statement .xorC := rfl
theorem xorD : Statement .xorD := rfl
theorem xorE : Statement .xorE := rfl
theorem xorH : Statement .xorH := rfl
theorem xorL : Statement .xorL := rfl
theorem xorIndHL : Statement .xorIndHL := rfl
theorem xorA : Statement .xorA := rfl
theorem orB : Statement .orB := rfl
theorem orC : Statement .orC := rfl
theorem orD : Statement .orD := rfl
theorem orE : Statement .orE := rfl
theorem orH : Statement .orH := rfl
theorem orL : Statement .orL := rfl
theorem orIndHL : Statement .orIndHL := rfl
theorem orA : Statement .orA := rfl
theorem cpB : Statement .cpB := rfl
theorem cpC : Statement .cpC := rfl
theorem cpD : Statement .cpD := rfl
theorem cpE : Statement .cpE := rfl
theorem cpH : Statement .cpH := rfl
theorem cpL : Statement .cpL := rfl
theorem cpIndHL : Statement .cpIndHL := rfl
theorem cpA : Statement .cpA := rfl
theorem addAImm (n : Byte) : Statement (.addAImm n) := rfl
theorem adcAImm (n : Byte) : Statement (.adcAImm n) := rfl
theorem subImm (n : Byte) : Statement (.subImm n) := rfl
theorem sbcAImm (n : Byte) : Statement (.sbcAImm n) := rfl
theorem ldPortCA : Statement .ldPortCA := rfl
theorem andImm (n : Byte) : Statement (.andImm n) := rfl
theorem ldAbsA (nn : Addr) : Statement (.ldAbsA nn) := rfl
theorem xorImm (n : Byte) : Statement (.xorImm n) := rfl
theorem ldAPortC : Statement .ldAPortC := rfl
theorem orImm (n : Byte) : Statement (.orImm n) := rfl
theorem ldAAbs (nn : Addr) : Statement (.ldAAbs nn) := rfl
theorem cpImm (n : Byte) : Statement (.cpImm n) := rfl

end Sys2Proof.Laws.OpcodeRow
end

