-- ==== Sys2Proof/Tests/Slice0.lean ====
section
/-! SUPPORT. The model's own tests: expected results are the spec's worked examples and vectors (95_test_vectors.md, named in each
comment), its encodings written out bit by bit, and hand calculation from its rules; then a witness for each statement that has
hypotheses. -/
namespace Sys2Proof.Tests
open Sys2Proof Sys2Proof.Machine

/-! ### The checks of a configuration refuse what breaks them -/

/-- R59, V2: a bank of size 0. -/
theorem test_emptyBank_refused : Bank.wellFormed ⟨0x9000, 0, .readWrite, .storage⟩ = false := by decide

/-- R59, V2: a bank that would end at 0x10001. -/
theorem test_bankPastTheTop_refused : Bank.wellFormed ⟨0xFF00, 0x0101, .readWrite, .storage⟩ = false := by decide

/-- R61, V2: two banks that share 0x7FFF. -/
theorem test_overlap_refused :
    banksWellFormed [⟨0x0000, 0x8000, .readOnly, .storage⟩, ⟨0x7FFF, 2, .readWrite, .storage⟩] = false := by decide

/-- R61, V2: two adjacent banks are no overlap. -/
theorem test_adjacent_accepted :
    banksWellFormed [⟨0x0000, 0x8000, .readOnly, .storage⟩, ⟨0x8000, 1, .readWrite, .storage⟩] = true := by decide

/-- R122, S11: 0x47 twice. -/
theorem test_duplicateOpcode_refused : opcodesUnique [0x47, 0x78, 0x47] = false := by decide

/-- The canonical form refuses a listed byte that an unlisted address reads as, and falling addresses. -/
theorem test_memory_form : Memory.wf [(3, 0xFF)] = false ∧ Memory.wf [(4, 1), (3, 2)] = false ∧ Memory.wf [(3, 1), (4, 2)] = true := by
  decide

/-- The failure a configuration answers, or none. -/
def failureOf {α : Type} (x : Except ConfigFailure α) : Option FailureKind :=
  match x with
  | .ok _    => none
  | .error e => some e.kind

/-- V2: `OverlapError`, `BadBank`, and success. -/
theorem test_registerBank :
    failureOf (registerBank [⟨0x0000, 0x8000, .readOnly, .storage⟩] ⟨0x7FFF, 2, .readWrite, .storage⟩) = some .overlapError ∧
    failureOf (registerBank [⟨0x0000, 0x8000, .readOnly, .storage⟩] ⟨0xFF00, 0x0101, .readWrite, .storage⟩) = some .badBank ∧
    failureOf (registerBank [⟨0x0000, 0x8000, .readOnly, .storage⟩] ⟨0x8000, 1, .readWrite, .storage⟩) = none := by decide

/-! ### Decoding: the encodings of the opcode table, bit by bit -/


/-- Row 0x, format S. -/
theorem test_decode_row0 :
    [0b00000010, 0b00000100, 0b00000101, 0b00001010, 0b00001100, 0b00001101].map (decodeTableWord 8) =
    [some .ldIndBCA, some .incB, some .decB, some .ldAIndBC, some .incC, some .decC] := by decide

/-- Row 1x, format S. -/
theorem test_decode_row1 :
    [0b00010010, 0b00010100, 0b00010101, 0b00011010, 0b00011100, 0b00011101].map (decodeTableWord 8) =
    [some .ldIndDEA, some .incD, some .decD, some .ldAIndDE, some .incE, some .decE] := by decide

/-- Row 2x, format S. -/
theorem test_decode_row2 :
    [0b00100100, 0b00100101, 0b00101100, 0b00101101].map (decodeTableWord 8) =
    [some .incH, some .decH, some .incL, some .decL] := by decide

/-- Row 3x, format S. -/
theorem test_decode_row3 :
    [0b00110100, 0b00110101, 0b00111100, 0b00111101].map (decodeTableWord 8) =
    [some .incIndHL, some .decIndHL, some .incA, some .decA] := by decide

/-- Row 4x, format S. -/
theorem test_decode_row4 :
    [0b01000000, 0b01000001, 0b01000010, 0b01000011, 0b01000100, 0b01000101, 0b01000110, 0b01000111,
     0b01001000, 0b01001001, 0b01001010, 0b01001011, 0b01001100, 0b01001101, 0b01001110, 0b01001111].map (decodeTableWord 8) =
    [some .ldBB, some .ldBC, some .ldBD, some .ldBE, some .ldBH, some .ldBL, some .ldBIndHL,
     some .ldBA, some .ldCB, some .ldCC, some .ldCD, some .ldCE, some .ldCH, some .ldCL,
     some .ldCIndHL, some .ldCA] := by decide

/-- Row 5x, format S. -/
theorem test_decode_row5 :
    [0b01010000, 0b01010001, 0b01010010, 0b01010011, 0b01010100, 0b01010101, 0b01010110, 0b01010111,
     0b01011000, 0b01011001, 0b01011010, 0b01011011, 0b01011100, 0b01011101, 0b01011110, 0b01011111].map (decodeTableWord 8) =
    [some .ldDB, some .ldDC, some .ldDD, some .ldDE, some .ldDH, some .ldDL, some .ldDIndHL,
     some .ldDA, some .ldEB, some .ldEC, some .ldED, some .ldEE, some .ldEH, some .ldEL,
     some .ldEIndHL, some .ldEA] := by decide

/-- Row 6x, format S. -/
theorem test_decode_row6 :
    [0b01100000, 0b01100001, 0b01100010, 0b01100011, 0b01100100, 0b01100101, 0b01100110, 0b01100111,
     0b01101000, 0b01101001, 0b01101010, 0b01101011, 0b01101100, 0b01101101, 0b01101110, 0b01101111].map (decodeTableWord 8) =
    [some .ldHB, some .ldHC, some .ldHD, some .ldHE, some .ldHH, some .ldHL, some .ldHIndHL,
     some .ldHA, some .ldLB, some .ldLC, some .ldLD, some .ldLE, some .ldLH, some .ldLL,
     some .ldLIndHL, some .ldLA] := by decide

/-- Row 7x, format S. -/
theorem test_decode_row7 :
    [0b01110000, 0b01110001, 0b01110010, 0b01110011, 0b01110100, 0b01110101, 0b01110111, 0b01111000,
     0b01111001, 0b01111010, 0b01111011, 0b01111100, 0b01111101, 0b01111110, 0b01111111].map (decodeTableWord 8) =
    [some .ldIndHLB, some .ldIndHLC, some .ldIndHLD, some .ldIndHLE, some .ldIndHLH, some .ldIndHLL, some .ldIndHLA,
     some .ldAB, some .ldAC, some .ldAD, some .ldAE, some .ldAH, some .ldAL, some .ldAIndHL,
     some .ldAA] := by decide

/-- Row 8x, format S. -/
theorem test_decode_row8 :
    [0b10000000, 0b10000001, 0b10000010, 0b10000011, 0b10000100, 0b10000101, 0b10000110, 0b10000111,
     0b10001000, 0b10001001, 0b10001010, 0b10001011, 0b10001100, 0b10001101, 0b10001110, 0b10001111].map (decodeTableWord 8) =
    [some .addAB, some .addAC, some .addAD, some .addAE, some .addAH, some .addAL, some .addAIndHL,
     some .addAA, some .adcAB, some .adcAC, some .adcAD, some .adcAE, some .adcAH, some .adcAL,
     some .adcAIndHL, some .adcAA] := by decide

/-- Row 9x, format S. -/
theorem test_decode_row9 :
    [0b10010000, 0b10010001, 0b10010010, 0b10010011, 0b10010100, 0b10010101, 0b10010110, 0b10010111,
     0b10011000, 0b10011001, 0b10011010, 0b10011011, 0b10011100, 0b10011101, 0b10011110, 0b10011111].map (decodeTableWord 8) =
    [some .subB, some .subC, some .subD, some .subE, some .subH, some .subL, some .subIndHL,
     some .subA, some .sbcAB, some .sbcAC, some .sbcAD, some .sbcAE, some .sbcAH, some .sbcAL,
     some .sbcAIndHL, some .sbcAA] := by decide

/-- Row Ax, format S. -/
theorem test_decode_rowA :
    [0b10100000, 0b10100001, 0b10100010, 0b10100011, 0b10100100, 0b10100101, 0b10100110, 0b10100111,
     0b10101000, 0b10101001, 0b10101010, 0b10101011, 0b10101100, 0b10101101, 0b10101110, 0b10101111].map (decodeTableWord 8) =
    [some .andB, some .andC, some .andD, some .andE, some .andH, some .andL, some .andIndHL,
     some .andA, some .xorB, some .xorC, some .xorD, some .xorE, some .xorH, some .xorL,
     some .xorIndHL, some .xorA] := by decide

/-- Row Bx, format S. -/
theorem test_decode_rowB :
    [0b10110000, 0b10110001, 0b10110010, 0b10110011, 0b10110100, 0b10110101, 0b10110110, 0b10110111,
     0b10111000, 0b10111001, 0b10111010, 0b10111011, 0b10111100, 0b10111101, 0b10111110, 0b10111111].map (decodeTableWord 8) =
    [some .orB, some .orC, some .orD, some .orE, some .orH, some .orL, some .orIndHL,
     some .orA, some .cpB, some .cpC, some .cpD, some .cpE, some .cpH, some .cpL,
     some .cpIndHL, some .cpA] := by decide

/-- Row Ex, format S. -/
theorem test_decode_rowE :
    [0b11100010].map (decodeTableWord 8) =
    [some .ldPortCA] := by decide

/-- Row Fx, format S. -/
theorem test_decode_rowF :
    [0b11110010].map (decodeTableWord 8) =
    [some .ldAPortC] := by decide

/-- Format I, with the immediate 0xA5 in the second byte. -/
theorem test_decode_immediates :
    [0b10100101_00000110, 0b10100101_00001110, 0b10100101_00010110, 0b10100101_00011110, 0b10100101_00100110,
     0b10100101_00101110, 0b10100101_00111110, 0b10100101_11000110, 0b10100101_11001110, 0b10100101_11010110,
     0b10100101_11011110, 0b10100101_11100110, 0b10100101_11101110, 0b10100101_11110110, 0b10100101_11111110].map (decodeTableWord 16) =
    [some (.ldBImm 0xA5), some (.ldCImm 0xA5), some (.ldDImm 0xA5), some (.ldEImm 0xA5), some (.ldHImm 0xA5),
     some (.ldLImm 0xA5), some (.ldAImm 0xA5), some (.addAImm 0xA5), some (.adcAImm 0xA5), some (.subImm 0xA5),
     some (.sbcAImm 0xA5), some (.andImm 0xA5), some (.xorImm 0xA5), some (.orImm 0xA5), some (.cpImm 0xA5)] := by decide

/-- Format W, low byte first: `FA 34 C2` and `EA 02 C0` (R174, R179). -/
theorem test_decode_absolutes :
    [0b11000010_00110100_11111010, 0b11000000_00000010_11101010].map (decodeTableWord 24) =
    [some (.ldAAbs 0xC234), some (.ldAbsA 0xC002)] := by decide

/-- R97, R98, R104: 0x36 and 0x76 are no loads, 0xCB is no prefix. -/
theorem test_decode_undefined :
    [0b00110110, 0b01110110, 0b11001011, 0b00000000].map (decodeTableWord 8) = [none, none, none, none] := by decide

/-- The lengths and costs of the opcode table, row by row. -/
theorem test_lengths_and_costs :
    (∀ i ∈ ([.incB, .decB, .incC, .decC, .incD, .decD, .incE, .decE, .incH,
     .decH, .incL, .decL, .incA, .decA, .ldBB, .ldBC, .ldBD, .ldBE,
     .ldBH, .ldBL, .ldBA, .ldCB, .ldCC, .ldCD, .ldCE, .ldCH, .ldCL,
     .ldCA, .ldDB, .ldDC, .ldDD, .ldDE, .ldDH, .ldDL, .ldDA, .ldEB,
     .ldEC, .ldED, .ldEE, .ldEH, .ldEL, .ldEA, .ldHB, .ldHC, .ldHD,
     .ldHE, .ldHH, .ldHL, .ldHA, .ldLB, .ldLC, .ldLD, .ldLE, .ldLH,
     .ldLL, .ldLA, .ldAB, .ldAC, .ldAD, .ldAE, .ldAH, .ldAL, .ldAA,
     .addAB, .addAC, .addAD, .addAE, .addAH, .addAL, .addAA, .adcAB, .adcAC,
     .adcAD, .adcAE, .adcAH, .adcAL, .adcAA, .subB, .subC, .subD, .subE,
     .subH, .subL, .subA, .sbcAB, .sbcAC, .sbcAD, .sbcAE, .sbcAH, .sbcAL,
     .sbcAA, .andB, .andC, .andD, .andE, .andH, .andL, .andA, .xorB,
     .xorC, .xorD, .xorE, .xorH, .xorL, .xorA, .orB, .orC, .orD,
     .orE, .orH, .orL, .orA, .cpB, .cpC, .cpD, .cpE, .cpH,
     .cpL, .cpA] : List Instr), i.len = 1 ∧ i.cost = 4) ∧
    (∀ i ∈ ([.ldIndBCA, .ldAIndBC, .ldIndDEA, .ldAIndDE, .ldBIndHL, .ldCIndHL, .ldDIndHL, .ldEIndHL, .ldHIndHL,
     .ldLIndHL, .ldIndHLB, .ldIndHLC, .ldIndHLD, .ldIndHLE, .ldIndHLH, .ldIndHLL, .ldIndHLA, .ldAIndHL,
     .addAIndHL, .adcAIndHL, .subIndHL, .sbcAIndHL, .andIndHL, .xorIndHL, .orIndHL, .cpIndHL, .ldPortCA,
     .ldAPortC] : List Instr), i.len = 1 ∧ i.cost = 8) ∧
    (∀ i ∈ ([.incIndHL, .decIndHL] : List Instr), i.len = 1 ∧ i.cost = 12) ∧
    (∀ i ∈ ([(.ldBImm 0), (.ldCImm 0), (.ldDImm 0), (.ldEImm 0), (.ldHImm 0), (.ldLImm 0), (.ldAImm 0), (.addAImm 0), (.adcAImm 0),
     (.subImm 0), (.sbcAImm 0), (.andImm 0), (.xorImm 0), (.orImm 0), (.cpImm 0)] : List Instr), i.len = 2 ∧ i.cost = 8) ∧
    (∀ i ∈ ([(.ldAbsA 0), (.ldAAbs 0)] : List Instr), i.len = 3 ∧ i.cost = 16) := by decide

/-! ### One step -/

/-- A machine on REF with these registers, this code at pc, and these bytes elsewhere. -/
def machineWith (x : Regs) (pc : Addr) (code : List Byte) (data : List Host.Cell) : State :=
  data.foldl (fun s c => { s with mem := Memory.write s.mem c.1 c.2 })
    (State.placeBytes { State.reset with regs := x, pc := pc } pc code)

/-- The state after one step. -/
def after (s : State) : Option State :=
  match step s with
  | .next t => some t
  | _       => none

/-- All registers 0 but those given. -/
def regs0 : Regs := ⟨0, 0, 0, 0, 0, 0, 0, 0⟩

/-- A field of the state after one step from pc 0. -/
def field {α : Type} (f : State → α) (x : Regs) (code : List Byte) (data : List Host.Cell) : Option α :=
  (after (machineWith x 0 code data)).map f

/-- A and F after one step from pc 0. -/
def accAndFlags (a f : Byte) (code : List Byte) : Option (Byte × Byte) :=
  field (fun t => (t.regs.a, t.regs.f)) { regs0 with a := a, f := f } code []

/-- The latch after one step from pc 0, and whether A, F, pc and the counter are as before. -/
def failure (x : Regs) (code : List Byte) (data : List Host.Cell) : Option (Latch × Bool) :=
  (after (machineWith x 0 code data)).map fun t => (t.latch, decide (t.regs = x ∧ t.pc = 0 ∧ t.cyc = 0))

/-- S7, the source's: LD B,A with A = 0x7A. -/
theorem test_ldBA :
    field (fun t => (t.regs.a, t.regs.b, t.pc, t.cyc)) { regs0 with a := 0x7A } [0x47] [] = some (0x7A, 0x7A, 1, 4) := by decide

/-- V3: LD L,H and LD H,L. -/
theorem test_ldLH : field (fun t => t.getExt .hl) { regs0 with h := 0x12, l := 0x34 } [0x6C] [] = some 0x1212 := by decide
theorem test_ldHL : field (fun t => t.getExt .hl) { regs0 with h := 0x12, l := 0x34 } [0x65] [] = some 0x3434 := by decide

/-- V3: LD B,B changes no register and no flag. -/
theorem test_ldBB :
    field (fun t => (t.regs.b, t.regs.f, t.pc, t.cyc)) { regs0 with b := 1, f := 0xFF } [0x40] [] = some (1, 0xFF, 1, 4) := by decide

/-- V4: LD B,0x00 sets no flag; LD H,0xC0. -/
theorem test_ldBImm :
    field (fun t => (t.regs.b, t.regs.f, t.pc, t.cyc)) { regs0 with b := 0xFF } [0x06, 0x00] [] = some (0, 0, 2, 8) := by decide
theorem test_ldHImm : field (fun t => t.getExt .hl) { regs0 with h := 0x11, l := 0x22 } [0x26, 0xC0] [] = some 0xC022 := by decide

/-- V4: LD L,0x80 whose operand byte lies past the top of the address space. -/
theorem test_ldLImm_wraps :
    (after (machineWith regs0 0xFFFF [0x2E, 0x80] [])).map (fun t => (t.regs.l, t.pc)) = some (0x80, 1) := by decide

/-- V4, P7: LD A,n at 0x7FFF, its operand unmapped. -/
theorem test_ldAImm_unmapped :
    (after (machineWith { regs0 with a := 0xAA } 0x7FFF [0x3E] [])).map (fun t => (t.latch, t.regs.a, t.pc)) =
      some (⟨true, .unmappedAddress, 0x8000, 0x7FFF⟩, 0xAA, 0x7FFF) := by decide

/-- S8, V5: LD A,(HL); LD H,(HL) forms the address first; LD B,(HL). -/
theorem test_ldAIndHL :
    field (fun t => (t.regs.a, t.pc, t.cyc)) { regs0 with h := 0x10 } [0x7E] [(0x1000, 0x5C)] = some (0x5C, 1, 8) := by decide
theorem test_ldHIndHL :
    field (fun t => t.getExt .hl) { regs0 with h := 0xC0, l := 0x10 } [0x66] [(0xC010, 0x99)] = some 0x9910 := by decide
theorem test_ldAIndHL_unmapped :
    failure { regs0 with a := 0x12, h := 0x90 } [0x7E] [] = some (⟨true, .unmappedAddress, 0x9000, 0⟩, true) := by decide

/-- V5: LD A,(BC), LD A,(DE). -/
theorem test_ldAIndBC : field (fun t => t.regs.a) { regs0 with b := 0xC0, c := 0x10 } [0x0A] [(0xC010, 0x99)] = some 0x99 := by decide
theorem test_ldAIndDE : field (fun t => t.regs.a) { regs0 with e := 0x03 } [0x1A] [(0x0003, 0x44)] = some 0x44 := by decide

/-- V5, R174: LD A,(nn). -/
theorem test_ldAAbs :
    field (fun t => (t.regs.a, t.pc, t.cyc)) regs0 [0xFA, 0x34, 0xC2] [(0xC234, 0x77)] = some (0x77, 3, 16) := by decide
theorem test_ldAAbs_operandUnmapped :
    (after (machineWith regs0 0x7FFE [0xFA, 0x34] [])).map (fun t => t.latch) =
      some ⟨true, .unmappedAddress, 0x8000, 0x7FFE⟩ := by decide

/-- S9, V5: LD A,(C), also at the top of the address space. -/
theorem test_ldAPortC : field (fun t => t.regs.a) { regs0 with c := 0x05 } [0xF2] [(0xFF05, 0x01)] = some 0x01 := by decide
theorem test_ldAPortC_top : field (fun t => t.regs.a) { regs0 with c := 0xFF } [0xF2] [(0xFFFF, 0xEE)] = some 0xEE := by decide

/-- V6: stores. -/
theorem test_ldIndHLB :
    field (fun t => (Memory.read t.mem 0xC000, t.pc, t.cyc)) { regs0 with b := 0x12, h := 0xC0 } [0x70] [] = some (0x12, 1, 8) := by
  decide
theorem test_ldIndHLB_readOnly :
    failure { regs0 with b := 0x12, h := 0x01 } [0x70] [] = some (⟨true, .permissionDenied, 0x0100, 0⟩, true) := by decide
theorem test_ldIndHLH : field (fun t => Memory.read t.mem 0xC0C1) { regs0 with h := 0xC0, l := 0xC1 } [0x74] [] = some 0xC0 := by decide
theorem test_ldIndHLL : field (fun t => Memory.read t.mem 0xC0C1) { regs0 with h := 0xC0, l := 0xC1 } [0x75] [] = some 0xC1 := by decide
theorem test_ldIndBCA : field (fun t => Memory.read t.mem 0xC100) { regs0 with a := 0xAB, b := 0xC1 } [0x02] [] = some 0xAB := by decide
theorem test_ldIndDEA :
    field (fun t => Memory.read t.mem 0xDFFF) { regs0 with a := 0x01, d := 0xDF, e := 0xFF } [0x12] [] = some 0x01 := by decide
theorem test_ldIndDEA_unmapped :
    failure { regs0 with a := 0x01, d := 0xA0 } [0x12] [] = some (⟨true, .unmappedAddress, 0xA000, 0⟩, true) := by decide
theorem test_ldAbsA :
    field (fun t => (Memory.read t.mem 0xC002, t.pc, t.cyc)) { regs0 with a := 0x46 } [0xEA, 0x02, 0xC0] [] = some (0x46, 3, 16) := by
  decide
theorem test_ldAbsA_readOnly :
    failure regs0 [0xEA, 0x00, 0x01] [] = some (⟨true, .permissionDenied, 0x0100, 0⟩, true) := by decide
theorem test_ldPortCA : field (fun t => Memory.read t.mem 0xFF80) { regs0 with a := 0x5A, c := 0x80 } [0xE2] [] = some 0x5A := by decide

/-- V7: ADD, ADC. -/
theorem test_addAImm : accAndFlags 0x01 0xF0 [0xC6, 0x0F] = some (0x10, 0x20) := by decide
theorem test_addAImm_zero : accAndFlags 0x00 0xFF [0xC6, 0x00] = some (0x00, 0x80) := by decide
theorem test_addAA : accAndFlags 0x80 0x00 [0x87] = some (0x00, 0x90) := by decide
theorem test_addAB :
    field (fun t => (t.regs.a, t.regs.f, t.cyc)) { regs0 with a := 0x3A, b := 0xC6 } [0x80] [] = some (0x00, 0xB0, 4) := by decide
theorem test_addAIndHL :
    field (fun t => (t.regs.a, t.regs.f, t.cyc)) { regs0 with a := 0x12, h := 0xC0, l := 0x01 } [0x86] [(0xC001, 0x34)] =
      some (0x46, 0x00, 8) := by decide
theorem test_addAIndHL_unmapped :
    failure { regs0 with a := 0x01, h := 0x90 } [0x86] [] = some (⟨true, .unmappedAddress, 0x9000, 0⟩, true) := by decide
theorem test_adcAImm : accAndFlags 0x00 0x10 [0xCE, 0xFF] = some (0x00, 0xB0) := by decide
theorem test_adcAImm_noCarry : accAndFlags 0xE1 0x00 [0xCE, 0x0F] = some (0xF0, 0x20) := by decide
theorem test_adcAE :
    field (fun t => (t.regs.a, t.regs.f)) { regs0 with a := 0xE1, e := 0x0F, f := 0x10 } [0x8B] [] = some (0xF1, 0x20) := by decide

/-- V8: SUB, SBC, CP. -/
theorem test_subImm : accAndFlags 0x3E 0x00 [0xD6, 0x0F] = some (0x2F, 0x60) := by decide
theorem test_subImm_borrow : accAndFlags 0x3E 0x00 [0xD6, 0x40] = some (0xFE, 0x50) := by decide
theorem test_subA : accAndFlags 0x77 0x00 [0x97] = some (0x00, 0xC0) := by decide
theorem test_sbcAImm : accAndFlags 0x00 0x10 [0xDE, 0xFF] = some (0x00, 0xF0) := by decide
theorem test_sbcAImm_half : accAndFlags 0x10 0x10 [0xDE, 0x0F] = some (0x00, 0xE0) := by decide
theorem test_sbcAA : accAndFlags 0x42 0x10 [0x9F] = some (0xFF, 0x70) := by decide
theorem test_sbcAH :
    field (fun t => (t.regs.a, t.regs.f)) { regs0 with a := 0x3B, h := 0x2A, f := 0x10 } [0x9C] [] = some (0x10, 0x40) := by decide
theorem test_cpImm : accAndFlags 0x3C 0x00 [0xFE, 0x2F] = some (0x3C, 0x60) := by decide
theorem test_cpImm_less : accAndFlags 0x3C 0x00 [0xFE, 0x40] = some (0x3C, 0x50) := by decide
theorem test_cpIndHL :
    field (fun t => (t.regs.a, t.regs.f)) { regs0 with a := 0x12, h := 0xC0, l := 0x01 } [0xBE] [(0xC001, 0x12)] =
      some (0x12, 0xC0) := by decide

/-- V9: AND, XOR, OR. -/
theorem test_andImm : accAndFlags 0x5A 0xF0 [0xE6, 0x3F] = some (0x1A, 0x20) := by decide
theorem test_andA : accAndFlags 0x00 0x50 [0xA7] = some (0x00, 0xA0) := by decide
theorem test_andL :
    field (fun t => (t.regs.a, t.regs.f)) { regs0 with a := 0x5A, l := 0x3F } [0xA5] [] = some (0x1A, 0x20) := by decide
theorem test_xorImm : accAndFlags 0xFF 0xF0 [0xEE, 0x0F] = some (0xF0, 0x00) := by decide
theorem test_xorA : accAndFlags 0x9C 0x70 [0xAF] = some (0x00, 0x80) := by decide
theorem test_orImm : accAndFlags 0x5A 0xF0 [0xF6, 0x03] = some (0x5B, 0x00) := by decide
theorem test_orA : accAndFlags 0x00 0x70 [0xB7] = some (0x00, 0x80) := by decide

/-- V10: INC, DEC. -/
theorem test_incA : accAndFlags 0xFF 0x10 [0x3C] = some (0x00, 0xB0) := by decide
theorem test_incB : field (fun t => (t.regs.b, t.regs.f)) { regs0 with b := 0x0F, f := 0xFF } [0x04] [] = some (0x10, 0x30) := by decide
theorem test_incL : field (fun t => t.getExt .hl) { regs0 with h := 0xC0, l := 0xFF } [0x2C] [] = some 0xC000 := by decide
theorem test_decA : accAndFlags 0x01 0x00 [0x3D] = some (0x00, 0xC0) := by decide
theorem test_decB : field (fun t => (t.regs.b, t.regs.f)) regs0 [0x05] [] = some (0xFF, 0x60) := by decide
theorem test_decE : field (fun t => (t.regs.e, t.regs.f)) { regs0 with e := 0x80, f := 0xF0 } [0x1D] [] = some (0x7F, 0x70) := by decide
theorem test_incIndHL :
    field (fun t => (Memory.read t.mem 0xC000, t.regs.f, t.cyc)) { regs0 with h := 0xC0, f := 0x10 } [0x34] [(0xC000, 0xFF)] =
      some (0x00, 0xB0, 12) := by decide
theorem test_incIndHL_readOnly :
    failure { regs0 with h := 0x01 } [0x34] [(0x0100, 0x0F)] = some (⟨true, .permissionDenied, 0x0100, 0⟩, true) := by decide
theorem test_decIndHL :
    field (fun t => (Memory.read t.mem 0xC000, t.regs.f, t.cyc)) { regs0 with h := 0xC0 } [0x35] [(0xC000, 0x00)] =
      some (0xFF, 0x60, 12) := by decide

/-- V11: an undefined opcode, its byte zero-extended in the latch; an unmapped fetch; no step with the latch set. -/
theorem test_undefined :
    (after (machineWith regs0 0x0010 [0xCB] [])).map (fun t => (t.latch, t.pc, t.cyc)) =
      some (⟨true, .undefinedOpcode, 0x00CB, 0x0010⟩, 0x0010, 0) := by decide
theorem test_unmappedFetch :
    (after (machineWith regs0 0x8000 [] [])).map (fun t => t.latch) = some ⟨true, .unmappedAddress, 0x8000, 0x8000⟩ := by decide
theorem test_faulted : after { State.reset with latch := ⟨true, .undefinedOpcode, 0xCB, 0⟩ } = none := by decide

/-! ### Registers, banks, host (V1, V2) -/

theorem test_set_truncates : (State.reset.setNat .b 0x1FF).regs.b = 0xFF ∧ (State.reset.setNat .a 0x100).regs.a = 0 := by decide
theorem test_setExt :
    (State.reset.setExtNat .hl 0x1234).regs.h = 0x12 ∧ (State.reset.setExtNat .hl 0x1234).regs.l = 0x34 ∧
    (State.reset.setExtNat .bc 0x1ABCD).regs.b = 0xAB ∧ (State.reset.setExtNat .pc 0x10000).pc = 0 ∧
    (State.reset.setExtNat .sp 0xFFFE).regs = State.reset.regs := by decide

/-- Bank K of V2: offset 0x0100, size 4, bytes 11 22 33 44. -/
def bankK (p : Permission) : Bank := ⟨0x0100, 4, p, .storage⟩
def withK : State := { State.reset with mem := [(0x0100, 0x11), (0x0101, 0x22), (0x0102, 0x33), (0x0103, 0x44)] }

theorem test_bankRead :
    withK.bankRead (bankK .readOnly) 0x0102 = .ok 0x33 withK ∧
    withK.bankRead (bankK .readOnly) 0x0104 = .failed .outOfRange 0x0104 withK ∧
    withK.bankRead (bankK .readWrite) 0x00FF = .failed .outOfRange 0x00FF withK := by decide
theorem test_bankWrite :
    withK.bankWrite (bankK .readOnly) 0xFF 0x0102 = .failed .permissionDenied 0x0102 withK ∧
    withK.bankWrite (bankK .readOnly) 0xAB 0x0104 = .failed .outOfRange 0x0104 withK ∧
    withK.bankWrite (bankK .readWrite) 0xAB 0x0101 = .ok () { withK with mem := Memory.write withK.mem 0x0101 0xAB } := by decide

/-- What a range operation answers, its state left out. -/
def answer {α : Type} : Host.Outcome (Access α) Fault Refusal → Option (Except FailureKind α)
  | .next (.ok v _)       => some (.ok v)
  | .next (.failed k _ _) => some (.error k)
  | _                     => none

theorem test_readRange : answer (withK.bankReadRange (bankK .readOnly) 0x0101 2) = some (.ok [0x22, 0x33]) := rfl
theorem test_readRange_past : answer (withK.bankReadRange (bankK .readOnly) 0x0102 3) = some (.error .outOfRange) := rfl
/-- The four bytes of bank K after a range write that was made. -/
def bytesOfK : Host.Outcome (Access Unit) Fault Refusal → Option (List Byte)
  | .next (.ok _ t) => some [Memory.read t.mem 0x0100, Memory.read t.mem 0x0101, Memory.read t.mem 0x0102, Memory.read t.mem 0x0103]
  | _               => none

theorem test_writeRange :
    bytesOfK (withK.bankWriteRange (bankK .readWrite) [0xA0, 0xA1] 0x0102) = some [0x11, 0x22, 0xA0, 0xA1] := by decide
theorem test_writeRange_readOnly :
    answer (withK.bankWriteRange (bankK .readOnly) [0xA0, 0xA1] 0x0102) = some (.error .permissionDenied) ∧
    answer (withK.bankWriteRange (bankK .readOnly) [0xA0, 0xA1, 0xA2] 0x0102) = some (.error .outOfRange) := ⟨rfl, rfl⟩

/-- V2, routing on REF. -/
theorem test_routing :
    State.reset.memRead 0x8000 = .failed .unmappedAddress 0x8000 State.reset ∧
    State.reset.memRead 0xFEFF = .failed .unmappedAddress 0xFEFF State.reset ∧
    State.reset.memWrite 0x0000 0x55 = .failed .permissionDenied 0x0000 State.reset ∧
    State.reset.memWrite 0x9000 0x55 = .failed .unmappedAddress 0x9000 State.reset ∧
    State.reset.memWrite 0xC123 0x55 = .ok () { State.reset with mem := [(0xC123, 0x55)] } := by decide

/-- V11: reset after a failure. -/
theorem test_hostReset :
    State.hostReset { State.reset with pc := 5, latch := ⟨true, .undefinedOpcode, 0xD3, 5⟩, cyc := 92 } = State.reset := by decide

/-- The machine of a boot that succeeds. -/
def booted : Except ConfigFailure State → Option State
  | .ok s    => some s
  | .error _ => none

/-- Booting REF with nothing loaded is the state after reset (R252). -/
theorem test_boot_ref :
    booted (boot (Config.refBanks.map (fun b => ⟨b, []⟩)) 0 Regs.powerOn 0xA5A5) = some State.reset := by decide +kernel

/-- The failure of setting up these banks. -/
def setUpFailure (inits : List BankInit) : Option FailureKind := failureOf (setUpBanks inits 0 Regs.powerOn 0)

/-- The order of R252: a later bank is found ill-formed (2) before an earlier overlap (3); a read-only image that does not fit (2)
comes before an overlap (3), and the overlap before a read-write image that does not fit (4). -/
theorem test_boot_order :
    setUpFailure [⟨⟨0, 2, .readWrite, .storage⟩, []⟩, ⟨⟨1, 2, .readWrite, .storage⟩, []⟩, ⟨⟨9, 0, .readWrite, .storage⟩, []⟩] =
      some .badBank ∧
    setUpFailure [⟨⟨0, 2, .readWrite, .storage⟩, []⟩, ⟨⟨1, 2, .readOnly, .storage⟩, [1, 2, 3]⟩] = some .outOfRange ∧
    setUpFailure [⟨⟨0, 2, .readWrite, .storage⟩, [1, 2, 3]⟩, ⟨⟨1, 2, .readOnly, .storage⟩, []⟩] = some .overlapError ∧
    setUpFailure [⟨⟨0, 2, .readWrite, .storage⟩, [1, 2, 3]⟩, ⟨⟨2, 2, .readOnly, .storage⟩, []⟩] = some .outOfRange := by decide

/-- A table word placed for the next fetch is what the step runs: formats S, I and W, operands zero. -/
theorem test_withFetchWord :
    step (State.reset.withFetchWord 8 0x47) = exec .ldBA (State.reset.withFetchWord 8 0x47) ∧
    step (State.reset.withFetchWord 16 0x3E) = exec (.ldAImm 0) (State.reset.withFetchWord 16 0x3E) ∧
    step (State.reset.withFetchWord 8 0xEA) = exec (.ldAbsA 0) (State.reset.withFetchWord 8 0xEA) := ⟨rfl, rfl, rfl⟩

/-! ### A device bank: the answer is free, what the device has seen is not -/

/-- One read-write device bank over 0xFF00 to 0xFFFF, code in storage below. -/
def withDevice (x : Regs) (code : List Byte) : State :=
  { machineWith x 0 code [] with banks := [⟨0, 0x8000, .readWrite, .storage⟩, ⟨0xFF00, 0x0100, .readWrite, .device⟩] }

/-- R66, R70, R175: LD A,(C) draws the device's answer, once. -/
theorem test_device_read :
    (after (withDevice { regs0 with c := 0x05 } [0xF2])).map (fun t => (t.regs.a, t.events)) =
      some (Config.deviceAnswer [] 0xFF05, [.read 0xFF05]) := rfl

/-- R66, R70, R180: LD (C),A is a write event and no read. -/
theorem test_device_write :
    (after (withDevice { regs0 with a := 0x5A, c := 0x80 } [0xE2])).map (fun t => (t.events, t.mem)) =
      some ([.write 0xFF80 0x5A], (withDevice regs0 [0xE2]).mem) := rfl

/-! ### Witnesses: every statement with hypotheses has a state and operands that meet them together -/

/-- The 3-byte instruction EA 00 C0 at the last addresses of ROM, its operands unmapped from the second or the third byte on. -/
def atRomEnd (pc : Addr) (op : Byte) : State := machineWith regs0 pc [op] []

theorem witness_BootedMachineMeetsInvariant :
    (booted (boot [⟨⟨0xC000, 2, .readWrite, .storage⟩, [0x12]⟩, ⟨⟨0, 0x8000, .readOnly, .storage⟩, [0x47, 0xD3]⟩,
      ⟨⟨0xFFFF, 1, .readWrite, .device⟩, []⟩] 0 regs0 1)).map (fun s => s.mem) = some [(0, 0x47), (1, 0xD3), (0xC000, 0x12)] := by decide +kernel

/-- That a boot succeeds: disjoint well-formed banks, touching, one to the last address, each image at most as long as its bank. -/
def bootable : List BankInit :=
  [⟨⟨0, 2, .readOnly, .storage⟩, [0x47, 0xD3]⟩, ⟨⟨2, 1, .readWrite, .storage⟩, []⟩, ⟨⟨0xFFFF, 1, .readWrite, .device⟩, [7]⟩]

theorem witness_BootedMachineMeetsInvariant_succeeds :
    banksWellFormed (bootable.map BankInit.bank) = true ∧ ∀ x ∈ bootable, x.image.length ≤ x.bank.size := by decide

theorem witness_StepKeepsInvariant : State.reset.Inv ∧ (after State.reset).isSome = true := by decide

theorem witness_StepKeepsInvariant_completed :
    (machineWith regs0 0xC000 [0x47] []).Inv ∧
      (after (machineWith regs0 0xC000 [0x47] [])).map (fun t => t.latch.faulted) = some false := by decide

/-- A host action answers a state. -/
def acted (x : HostAction) : Bool :=
  match hostAct x State.reset with
  | .next _ => true
  | _       => false

theorem witness_ConfigurationNeverChanges :
    acted .step = true ∧ acted .reset = true ∧ acted (.setReg .f 256) = true ∧ acted (.setExt .sp 65536) = true ∧
    acted (.readBank 0 0) = true ∧ acted (.writeBank 1 7 0xC000) = true ∧ acted (.readRange 0 0 2) = true ∧
    acted (.writeRange 2 [1, 2] 0xFF00) = true ∧ acted (.readBank 3 0) = false ∧ acted (.readRange 0 0 0) = false := by decide

theorem witness_StepsExactlyWhileNotFaulted :
    State.reset.latch.faulted = false ∧ (State.reset.raise .undefinedOpcode 0xFF).latch.faulted = true := by decide

/-- FailedStepIsPrecise, OnlyRunTimeKindsReachTheLatch, CompletedStepAdvances (failed): a failed step of each kind. -/
theorem witness_failed_steps :
    ((after (machineWith regs0 0 [0x76] [])).map (fun t => (t.latch.faulted, t.latch.kind.code)) = some (true, 6)) ∧
    ((after (machineWith regs0 0 [0x02] [])).map (fun t => (t.latch.faulted, t.latch.kind.code)) = some (true, 2)) ∧
    ((after (machineWith { regs0 with h := 0x80 } 0 [0x7E] [])).map (fun t => (t.latch.faulted, t.latch.kind.code)) =
      some (true, 3)) := by decide

/-- CompletedStepAdvances (completed), at the top of the address space: a 3-byte step from 0xFFFE (V1). -/
theorem witness_CompletedStepAdvances :
    (after (machineWith regs0 0xFFFE [0xFA, 0x00, 0xC0] [])).map (fun t => (t.latch.faulted, t.pc, t.cyc)) = some (false, 1, 16) := by
  decide

theorem witness_StepRunsDecodedInstruction :
    (machineWith regs0 0xFFFE [0xFA, 0x00, 0xC0] []).latch.faulted = false ∧
    bytesAtPc (machineWith regs0 0xFFFE [0xFA, 0x00, 0xC0] []) [0xFA, 0x00, 0xC0] ∧
    decode [0xFA, 0x00, 0xC0] = .instr (.ldAAbs 0xC000) [] := by decide

/-- StepRunsDecodedInstruction across two banks: LD A,n at the last address of storage, its operand the first byte of a device,
whatever that answers; and the step has read the device once. -/
def opcodeInStorageOperandInDevice : State :=
  { State.reset with mem := [(0x7FFF, 0x3E)], pc := 0x7FFF,
                     banks := [⟨0, 0x8000, .readOnly, .storage⟩, ⟨0x8000, 0x0100, .readWrite, .device⟩] }

theorem witness_StepRunsDecodedInstruction_device :
    opcodeInStorageOperandInDevice.latch.faulted = false ∧
    bytesFetched opcodeInStorageOperandInDevice 0 [0x3E, Config.deviceAnswer [] 0x8000]
      { opcodeInStorageOperandInDevice with events := [.read 0x8000] } ∧
    decode [0x3E, Config.deviceAnswer [] 0x8000] = .instr (.ldAImm (Config.deviceAnswer [] 0x8000)) [] :=
  ⟨rfl, ⟨_, rfl, rfl, _, rfl, rfl, rfl⟩, rfl⟩

/-- UndefinedOpcodeTraps: the first and the last undefined opcode. -/
theorem witness_UndefinedOpcodeTraps :
    ∀ op ∈ ([0x00, 0xFF] : List Byte),
      (machineWith regs0 0 [op] []).latch.faulted = false ∧
      ownerOf (machineWith regs0 0 [op] []).banks 0 = some ⟨0, 0x8000, .readOnly, .storage⟩ ∧
      ((machineWith regs0 0 [op] []).byteAt ⟨0, 0x8000, .readOnly, .storage⟩ 0).toNat ∈ undefinedOpcodes := by decide

theorem witness_EncodeOfDecode : decode [0xEA, 0x02, 0xC0, 0x47] = .instr (.ldAbsA 0xC002) [0x47] := by decide

theorem witness_DuplicateOpcodesAreRefused :
    opcodesUnique ([(⟨0x47, .s .ldBA⟩ : Row), ⟨0x47, .w .ldAAbs⟩].map Row.opcode) = false ∧
    opcodesUnique ([(⟨0x47, .s .ldBA⟩ : Row), ⟨0xFA, .w .ldAAbs⟩].map Row.opcode) = true := by decide

theorem witness_RegisterSetGet : (Reg.a ≠ Reg.f) := by decide

/-- BankReadChecksBounds, BankWriteChecksBoundsThenPermission: both sides of both bounds. -/
theorem witness_bank_bounds :
    ((0x00FF : Addr).toNat < (bankK .readOnly).offset) ∧ ((bankK .readOnly).offset ≤ (0x0100 : Addr).toNat) ∧
    ((0x0103 : Addr).toNat < (bankK .readOnly).offset + (bankK .readOnly).size) ∧
    ((bankK .readOnly).offset + (bankK .readOnly).size ≤ (0x0104 : Addr).toNat) ∧ (bankK .readOnly).perm = .readOnly ∧
    (bankK .readWrite).perm = .readWrite ∧ (bankK .readWrite).kind = .storage := by decide

theorem witness_StorageLaw :
    Memory.wf withK.mem = true ∧ (bankK .readWrite).owns 0x0103 = true ∧ (bankK .readOnly).owns 0x0100 = true ∧
    (bankK .readWrite).owns 0x0104 = false ∧ (0x0103 : Nat) ≠ 0x0102 := by decide

/-- RangeReadReturnsTheSpan, RangeWriteIsAllOrNothing: the last span in bounds, the first out of bounds on each side. -/
theorem witness_ranges :
    Memory.wf withK.mem = true ∧ (bankK .readWrite).wellFormed = true ∧ (bankK .readOnly).wellFormed = true ∧
    (0x0100 : Addr).toNat + 4 ≤ 0x0100 + 4 ∧ 0x0100 + 4 < (0x0101 : Addr).toNat + 4 ∧ (0x00FF : Addr).toNat < 0x0100 := by decide

/-- DeviceAccessesAreSeenOnce: a device bank, in and out of bounds, of both permissions. -/
theorem witness_DeviceAccessesAreSeenOnce :
    (⟨0xFF00, 0x0100, .readWrite, .device⟩ : Bank).kind = .device ∧
    (⟨0xFF00, 0x0100, .readWrite, .device⟩ : Bank).owns 0xFFFF = true ∧
    (⟨0xFF00, 0x0100, .readOnly, .device⟩ : Bank).owns 0xFF00 = true ∧
    (⟨0xFF00, 0x0100, .readWrite, .device⟩ : Bank).owns 0xFEFF = false ∧
    0xFF00 ≤ (0xFFFE : Addr).toNat ∧ (0xFFFE : Addr).toNat + 2 ≤ 0xFF00 + 0x0100 := by decide

/-- A range of a device bank up to the last address: its accesses ascending, each seen once (log entry 14). -/
theorem test_device_range :
    answer (State.reset.bankReadRange ⟨0xFF00, 0x0100, .readWrite, .device⟩ 0xFFFE 2) =
      some (.ok [Config.deviceAnswer [] 0xFFFE, Config.deviceAnswer [.read 0xFFFE] 0xFFFF]) ∧
    State.reset.bankWriteRange ⟨0xFF00, 0x0100, .readWrite, .device⟩ [1, 2] 0xFFFE =
      .next (.ok () { State.reset with events := [.write 0xFFFF 2, .write 0xFFFE 1] }) := ⟨rfl, rfl⟩

/-- ReadsAreRouted, WritesAreRouted: the edges of REF's banks, a read-only and a read-write one. -/
theorem witness_routing :
    banksWellFormed Config.refBanks = true ∧ (∀ b ∈ Config.refBanks, b.owns (0x8000 : Addr).toNat = false) ∧
    (∃ b ∈ Config.refBanks, b.owns (0x7FFF : Addr).toNat = true ∧ b.perm = .readOnly) ∧
    (∃ b ∈ Config.refBanks, b.owns (0xFFFF : Addr).toNat = true ∧ b.perm = .readWrite) := by decide

theorem witness_RegisterBankChecks :
    ((⟨0x9000, 0, .readWrite, .storage⟩ : Bank).size = 0) ∧
    (0x10000 < (⟨0xFF00, 0x0101, .readWrite, .storage⟩ : Bank).offset + 0x0101) ∧
    (∀ x ∈ ([] : List Bank), ¬(x.offset < 0x9000 + 0 ∧ 0x9000 < x.offset + x.size)) ∧
    (∃ x ∈ [(⟨0, 0x8000, .readOnly, .storage⟩ : Bank)], x.offset < 0x7FFF + 2 ∧ 0x7FFF < x.offset + x.size) ∧
    (∀ x ∈ [(⟨0, 0x8000, .readOnly, .storage⟩ : Bank)], ¬(x.offset < 0x8000 + 1 ∧ 0x8000 < x.offset + x.size)) := by decide

/-- The banks of a registration that succeeds. -/
def registeredBanks : Except ConfigFailure (List Bank) → Option (List Bank)
  | .ok banks => some banks
  | .error _  => none

theorem witness_RegisteredBanksAreDisjoint :
    registeredBanks (registerBanks [] Config.refBanks) = some Config.refBanks ∧
      ∃ x ∈ Config.refBanks, x.owns (0xC000 : Addr).toNat = true := by decide

theorem witness_StoresAreFetched :
    Memory.wf State.reset.mem = true ∧ storageOwned State.reset.banks 0xFFFF = true ∧
    State.reset.memWrite 0xFFFF 0x3C = .ok () { State.reset with mem := [(0xFFFF, 0x3C)] } ∧
    (0xFFFE : Addr) + BitVec.ofNat 16 1 = 0xFFFF := by decide

/-- FetchFailures, which every instruction's statement holds: the opcode unmapped, the second byte, the third byte. -/
theorem witness_FetchFailures :
    ((atRomEnd 0x8000 0).latch.faulted = false ∧ ownerOf (atRomEnd 0x8000 0).banks 0x8000 = none) ∧
    (ownerOf (atRomEnd 0x7FFF 0xEA).banks 0x7FFF = some ⟨0, 0x8000, .readOnly, .storage⟩ ∧
      (atRomEnd 0x7FFF 0xEA).byteAt ⟨0, 0x8000, .readOnly, .storage⟩ 0x7FFF = (Instr.ldAbsA 0).opcode ∧
      2 ≤ (Instr.ldAbsA 0).len ∧ ownerOf (atRomEnd 0x7FFF 0xEA).banks (0x7FFF + 1) = none) ∧
    (ownerOf (atRomEnd 0x7FFE 0xEA).banks 0x7FFE = some ⟨0, 0x8000, .readOnly, .storage⟩ ∧
      (atRomEnd 0x7FFE 0xEA).byteAt ⟨0, 0x8000, .readOnly, .storage⟩ 0x7FFE = (Instr.ldAbsA 0).opcode ∧
      3 ≤ (Instr.ldAbsA 0).len ∧
      ownerOf (atRomEnd 0x7FFE 0xEA).banks (0x7FFE + 1) = some ⟨0, 0x8000, .readOnly, .storage⟩ ∧
      ownerOf (atRomEnd 0x7FFE 0xEA).banks (0x7FFE + 2) = none) := by decide

/-- The forms the statements of the families name. -/
theorem witness_forms :
    Instr.form .ldHA = .ldRegReg .h .a ∧ Instr.form (.ldLImm 0xFF) = .ldRegImm .l 0xFF ∧ Instr.form .ldHIndHL = .ldRegInd .h ∧
    Instr.form .ldIndHLH = .ldIndReg .h ∧ Instr.form .incA = .inc (.reg .a) ∧ Instr.form .decB = .dec (.reg .b) ∧
    Instr.form .incIndHL = .inc .indHL ∧ Instr.form .decIndHL = .dec .indHL := by decide

/-- LoadRegisterFromHL, LoadAFromPair, LoadAFromAbsolute, LoadAFromPort, the stores, IncrementAtHL, DecrementAtHL: an effective
address that is unmapped, one in a read-only bank, one in a read-write bank; on REF, and, for a port, with an unmapped or
read-only window. -/
theorem witness_effective_addresses :
    ownerOf Config.refBanks (wordOf 0x80 0x00) = none ∧
    ownerOf Config.refBanks (wordOf 0x7F 0xFF) = some ⟨0, 0x8000, .readOnly, .storage⟩ ∧
    ownerOf Config.refBanks (wordOf 0xC0 0x00) = some ⟨0xC000, 0x2000, .readWrite, .storage⟩ ∧
    (0xFFFF : Addr).toNat = 0xFF00 + (0xFF : Byte).toNat ∧ (0xFF00 : Addr).toNat = 0xFF00 + (0x00 : Byte).toNat ∧
    ownerOf [] (0xFF00 : Addr) = none ∧
    ownerOf [⟨0xFF00, 0x0100, .readOnly, .storage⟩] 0xFFFF = some ⟨0xFF00, 0x0100, .readOnly, .storage⟩ ∧
    ownerOf Config.refBanks 0xFFFF = some ⟨0xFF00, 0x0100, .readWrite, .storage⟩ := by decide

/-- The eight accumulator statements: each operation has each of its three forms, and its operand is readable in each; the `(HL)`
form also meets the hypothesis of its failure. -/
theorem witness_AccEffect_operands :
    State.operand State.reset (.reg .b) = .ok 0xBB State.reset ∧ State.operand State.reset (.imm 0xFF) = .ok 0xFF State.reset ∧
    State.operand State.reset .indHL = .ok 0xFF State.reset ∧
    ownerOf (machineWith { regs0 with h := 0x90 } 0 [] []).banks (wordOf 0x90 0x00) = none := by decide

theorem witness_AccEffect_forms :
    Instr.form .addAB = .alu .add (.reg .b) ∧ Instr.form .adcAIndHL = .alu .adc .indHL ∧
    Instr.form (.subImm 1) = .alu .sub (.imm 1) ∧ Instr.form .sbcAA = .alu .sbc (.reg .a) ∧
    Instr.form .andIndHL = .alu .and .indHL ∧ Instr.form (.xorImm 1) = .alu .xor (.imm 1) ∧
    Instr.form .orL = .alu .or (.reg .l) ∧ Instr.form .cpIndHL = .alu .cp .indHL := by decide

/-- An instruction answers a next state. -/
def answers (i : Instr) (s : State) : Bool :=
  match exec i s with
  | .next _ => true
  | _       => false

/-- The frames: one instruction of each kind answers, completed and failed; and addresses the frame of memory speaks of. -/
theorem witness_frames :
    answers .ldBC State.reset = true ∧ answers .addAB State.reset = true ∧ answers .incIndHL State.reset = true ∧
    writesFlags (Instr.form .ldBC) = false ∧ writesFlags (Instr.form .addAB) = true ∧ keepsCarry (Instr.form .incIndHL) = true ∧
    destReg (Instr.form .ldBC) ≠ some .c ∧ storeAddr State.reset (Instr.form .incIndHL) = some 0x1122 ∧
    storeAddr State.reset (Instr.form .ldBC) = none ∧ (∀ b ∈ State.reset.banks, b.kind = .storage) := by decide

end Sys2Proof.Tests
end

/-! SUPPORT. What one instruction and one step can do, said once for all 166 rows: the form's body either completes, within a
frame of the state and a frame of the registers, or fails having only read. The claims about steps and frames are read off it. -/
namespace Sys2Proof.Machine

/-! ### What reads leave alone -/

theorem ReadsOnly.regs {s t : State} (h : ReadsOnly s t) : t.regs = s.regs := by rw [h.eq]

theorem ReadsOnly.sp {s t : State} (h : ReadsOnly s t) : t.sp = s.sp := by rw [h.eq]

theorem ReadsOnly.pc {s t : State} (h : ReadsOnly s t) : t.pc = s.pc := by rw [h.eq]

theorem ReadsOnly.latch {s t : State} (h : ReadsOnly s t) : t.latch = s.latch := by rw [h.eq]

theorem ReadsOnly.cyc {s t : State} (h : ReadsOnly s t) : t.cyc = s.cyc := by rw [h.eq]

theorem ReadsOnly.mem {s t : State} (h : ReadsOnly s t) : t.mem = s.mem := by rw [h.eq]

theorem ReadsOnly.resetPc {s t : State} (h : ReadsOnly s t) : t.resetPc = s.resetPc := by rw [h.eq]

/-- What a register reads as depends on the register file alone. -/
theorem State.get_congr {s t : State} (h : t.regs = s.regs) (r : Reg) : t.get r = s.get r := by
  cases r <;> simp only [State.get, h]

/-! ### The flags -/

/-- The layout of F (R192) as a number: the four flags do not carry into each other. -/
theorem AluResult.toNat_flags (x : AluResult) :
    x.flags.toNat = x.z.toNat * 128 + x.n.toNat * 64 + x.h.toNat * 32 + x.c.toNat * 16 := by
  have := x.z.toNat_le
  have := x.n.toNat_le
  have := x.h.toNat_le
  have := x.c.toNat_le
  simp only [AluResult.flags, BitVec.toNat_ofNat]
  omega

theorem AluResult.flags_low (x : AluResult) : x.flags.toNat % 16 = 0 := by
  rw [x.toNat_flags]
  omega

/-- Bit 4 of F as an ALU instruction writes it is the carry it answers (R30). -/
theorem AluResult.carryBit_flags (x : AluResult) : x.flags.toNat / 16 % 2 = x.c.toNat := by
  have := x.c.toNat_le
  rw [x.toNat_flags]
  omega

/-- The carry flag as a truth value and as a number. -/
theorem State.toNat_carry (s : State) : s.carry.toNat = carryBit s :=
  Nat.toNat_testBit s.regs.f.toNat 4

theorem opReg_ne_f (r : OpReg) : opReg r ≠ .f := by cases r <;> decide

/-! ### The frame of the registers -/

/-- What a form's completed body may do to the register file: only its destination and F are written, F only by the ALU family and
then with bits 3 to 0 clear, its bit 4 kept by increments and decrements (R30, R31, R192). -/
structure RegFrame (f : Form) (s t : State) : Prop where
  other     : ∀ r : Reg, r ≠ .f → destReg f ≠ some r → t.get r = s.get r
  flagsKept : writesFlags f = false → t.regs.f = s.regs.f
  flagsLow  : writesFlags f = true → t.regs.f.toNat % 16 = 0
  carryKept : keepsCarry f = true → carryBit t = carryBit s

/-- Increments and decrements are of the ALU family. -/
theorem writesFlags_of_keepsCarry {f : Form} (h : keepsCarry f = true) : writesFlags f = true := by
  cases f with
  | inc x | dec x => rfl
  | _ => cases h

/-- A form outside the ALU family that leaves the register file alone. -/
theorem RegFrame.of_regs_eq {f : Form} {s t : State} (hf : writesFlags f = false) (h : t.regs = s.regs) : RegFrame f s t where
  other r _ _ := State.get_congr h r
  flagsKept _ := by rw [h]
  flagsLow hw := by simp [hf] at hw
  carryKept hk := by simp [carryBit, h]

/-- A load writes its destination register. -/
theorem RegFrame.of_load {f : Form} {s t : State} {dst : Reg} (v : Byte) (hf : writesFlags f = false)
    (hd : destReg f = some dst) (hdst : dst ≠ .f) (h : t.regs = s.regs) : RegFrame f s (t.set dst v) where
  other r _ hr := by
    have hne : r ≠ dst := fun e => hr (by rw [e, hd])
    rw [State.get_set_other t v hne, State.get_congr h]
  flagsKept _ := (State.get_set_other t v hdst.symm).trans (State.get_congr h .f)
  flagsLow hw := by simp [hf] at hw
  carryKept hk := by simp [writesFlags_of_keepsCarry hk] at hf

/-- A form of the ALU family writes F last and whole. -/
theorem RegFrame.of_flags {f : Form} {s t : State} (x : AluResult) (hf : writesFlags f = true)
    (other : ∀ r : Reg, destReg f ≠ some r → t.get r = s.get r)
    (carry : keepsCarry f = true → x.c = s.carry) : RegFrame f s (t.set .f x.flags) where
  other r hr hd := by rw [State.get_set_other t x.flags hr, other r hd]
  flagsKept hw := by simp [hf] at hw
  flagsLow _ := x.flags_low
  carryKept hk := by rw [← State.toNat_carry s, ← carry hk]; exact x.carryBit_flags

/-- What each accumulator operation writes: `CP` the flags alone, the other seven A and the flags (R195 to R202). -/
theorem accOp_cases (op : AluOp) (s : State) (v : Byte) :
    (op = .cp ∧ ∃ x : AluResult, accOp op s v = s.set .f x.flags) ∨ (op ≠ .cp ∧ ∃ x, accOp op s v = s.putAcc x) := by
  cases op with
  | cp => exact Or.inl ⟨rfl, _, rfl⟩
  | _ => exact Or.inr ⟨nofun, _, rfl⟩

theorem destReg_alu {op : AluOp} (h : op ≠ .cp) (src : AluSrc) : destReg (.alu op src) = some .a := by
  cases op with
  | cp => exact absurd rfl h
  | _ => rfl

theorem RegFrame.of_accOp (op : AluOp) (src : AluSrc) {s t : State} (v : Byte) (h : t.regs = s.regs) :
    RegFrame (.alu op src) s (accOp op t v) := by
  rcases accOp_cases op t v with ⟨-, x, e⟩ | ⟨hop, x, e⟩ <;> rw [e]
  · exact .of_flags x rfl (fun r _ => State.get_congr h r) nofun
  · refine .of_flags x rfl (fun r hr => ?_) nofun
    have hne : r ≠ .a := fun e => hr (by rw [destReg_alu hop, e])
    rw [State.get_set_other t x.r hne, State.get_congr h]

/-- An increment or decrement of a register writes that register and F, and the carry it writes is the old one. -/
theorem RegFrame.of_incDec {f : Form} {s : State} {r : Reg} (x : AluResult) (hf : writesFlags f = true)
    (hd : destReg f = some r) (hc : x.c = s.carry) : RegFrame f s ((s.set r x.r).set .f x.flags) := by
  refine .of_flags x hf (fun r' hr => ?_) (fun _ => hc)
  have hne : r' ≠ r := fun e => hr (by rw [hd, e])
  exact State.get_set_other s x.r hne

/-! ### The frame of the rest of the state -/

/-- What a body may do to the state when it completes: it writes registers, it shows devices its accesses, and it stores at most
one byte, at the address `dst` of a storage bank (R27, R31, R38, R80). -/
structure BodyFrame (dst : Option Addr) (s t : State) : Prop where
  eq     : t = { s with regs := t.regs, mem := t.mem, events := t.events }
  mem    : t.mem = s.mem ∨
    ∃ a v, dst = some a ∧ storageOwned s.banks a = true ∧ t.mem = Memory.write s.mem a.toNat v
  events : (∀ b ∈ s.banks, b.kind = .storage) → t.events = s.events

theorem BodyFrame.sp {o : Option Addr} {s t : State} (h : BodyFrame o s t) : t.sp = s.sp := by rw [h.eq]

theorem BodyFrame.pc {o : Option Addr} {s t : State} (h : BodyFrame o s t) : t.pc = s.pc := by rw [h.eq]

theorem BodyFrame.latch {o : Option Addr} {s t : State} (h : BodyFrame o s t) : t.latch = s.latch := by rw [h.eq]

theorem BodyFrame.cyc {o : Option Addr} {s t : State} (h : BodyFrame o s t) : t.cyc = s.cyc := by rw [h.eq]

theorem BodyFrame.banks {o : Option Addr} {s t : State} (h : BodyFrame o s t) : t.banks = s.banks := by rw [h.eq]

theorem BodyFrame.resetPc {o : Option Addr} {s t : State} (h : BodyFrame o s t) : t.resetPc = s.resetPc := by rw [h.eq]

theorem ReadsOnly.bodyFrame {s t : State} (h : ReadsOnly s t) (o : Option Addr) : BodyFrame o s t where
  eq := by rw [h.eq]
  mem := Or.inl h.mem
  events := h.storage

theorem BodyFrame.set {o : Option Addr} {s t : State} (h : BodyFrame o s t) (r : Reg) (v : Byte) :
    BodyFrame o s (t.set r v) where
  eq := by rw [h.eq]; rfl
  mem := h.mem
  events := h.events

theorem BodyFrame.accOp {o : Option Addr} {s t : State} (h : BodyFrame o s t) (op : AluOp) (v : Byte) :
    BodyFrame o s (accOp op t v) := by
  rcases accOp_cases op t v with ⟨-, x, e⟩ | ⟨-, x, e⟩ <;> rw [e]
  · exact h.set .f x.flags
  · exact (h.set .a x.r).set .f x.flags

/-- A write after reads stores the byte in the storage bank that owns its address, or is seen by the device that does. -/
theorem ReadsOnly.bodyFrame_storeAt {s t : State} {a : Addr} {b : Bank} (h : ReadsOnly s t) (hb : ownerOf s.banks a = some b)
    (v : Byte) : BodyFrame (some a) s (t.storeAt b v a) := by
  unfold State.storeAt
  cases hk : b.kind with
  | storage =>
    have hown : storageOwned s.banks a = true := by simp [storageOwned, hb, hk]
    exact ⟨by rw [h.eq], Or.inr ⟨a, v, rfl, hown, by rw [h.mem]⟩, h.storage⟩
  | device =>
    have hno : ¬ ∀ b ∈ s.banks, b.kind = .storage := fun hs => by simp [hs b (mem_of_ownerOf hb)] at hk
    exact ⟨by rw [h.eq], Or.inl h.mem, fun hs => absurd hs hno⟩

/-! ### What a body can do -/

/-- What the latch may come to say of a step (R222, R223, R226): the recorded address is unmapped or read-only, or the recorded
opcode has no entry. -/
inductive RunTimeFailure (banks : List Bank) : FailureKind → Addr → Prop
  | unmapped {a : Addr} (h : ownerOf banks a = none) : RunTimeFailure banks .unmappedAddress a
  | denied {a : Addr} {b : Bank} (h : ownerOf banks a = some b) (hp : b.perm = .readOnly) :
      RunTimeFailure banks .permissionDenied a
  | undefined {op : Byte} (h : lookupOpcode op = none) :
      RunTimeFailure banks .undefinedOpcode (BitVec.ofNat 16 op.toNat)

/-- A form's body completes within both frames, or fails having only read. -/
inductive BodyOutcome (s : State) (f : Form) : Access Unit → Prop
  | completed {t : State} (frame : BodyFrame (storeAddr s f) s t) (regs : RegFrame f s t) : BodyOutcome s f (.ok () t)
  | failed {k : FailureKind} {a : Addr} {t : State} (reads : ReadsOnly s t) (why : RunTimeFailure s.banks k a) :
      BodyOutcome s f (.failed k a t)

/-- A body that begins with a read: what it does with the byte is all there is to show. -/
theorem BodyOutcome.of_read {s : State} {f : Form} {a : Addr} {g : Byte → State → Access Unit}
    (h : ∀ v t, ReadsOnly s t → BodyOutcome s f (g v t)) : BodyOutcome s f ((s.memRead a).andThen g) := by
  rcases s.memRead_cases a with ⟨hn, e⟩ | ⟨b, hb, e⟩ <;> rw [e]
  · exact .failed (.refl s) (.unmapped hn)
  · exact h _ _ (readsOnly_noteRead (mem_of_ownerOf hb))

/-- A body that, after reads, writes at the address its form stores to. -/
theorem BodyOutcome.of_write {s t : State} {f : Form} {a : Addr} {v : Byte} {g : Unit → State → Access Unit}
    (hr : ReadsOnly s t) (ha : storeAddr s f = some a)
    (h : ∀ u, BodyFrame (storeAddr s f) s u → u.regs = s.regs → BodyOutcome s f (g () u)) :
    BodyOutcome s f ((t.memWrite a v).andThen g) := by
  rcases t.memWrite_cases a v with ⟨hn, e⟩ | ⟨b, hb, hp, e⟩ | ⟨b, hb, -, e⟩ <;> rw [e]
  · exact .failed hr (.unmapped (hr.banks ▸ hn))
  · exact .failed hr (.denied (hr.banks ▸ hb) hp)
  · rw [hr.banks] at hb
    exact h _ (ha ▸ hr.bodyFrame_storeAt hb v) (by rw [State.storeAt_regs, hr.regs])

/-- A form that writes one register, with what it has read. -/
theorem BodyOutcome.of_load {s t : State} {f : Form} {dst : Reg} (v : Byte) (hr : ReadsOnly s t) (hf : writesFlags f = false)
    (hd : destReg f = some dst) (hdst : dst ≠ .f) : BodyOutcome s f (.ok () (t.set dst v)) :=
  .completed ((hr.bodyFrame _).set dst v) (.of_load v hf hd hdst hr.regs)

/-- A form that stores a register and does nothing else. -/
theorem BodyOutcome.of_store {s : State} {f : Form} {a : Addr} {v : Byte} (ha : storeAddr s f = some a)
    (hf : writesFlags f = false) : BodyOutcome s f (s.memWrite a v) := by
  have hunit : (s.memWrite a v).andThen (fun _ t => .ok () t) = s.memWrite a v := by cases s.memWrite a v <;> rfl
  rw [← hunit]
  exact .of_write (.refl s) ha fun u hu hregs => .completed hu (.of_regs_eq hf hregs)

theorem BodyOutcome.of_accOp {s t : State} (op : AluOp) (src : AluSrc) (v : Byte) (hr : ReadsOnly s t) :
    BodyOutcome s (.alu op src) (.ok () (accOp op t v)) :=
  .completed ((hr.bodyFrame _).accOp op v) (.of_accOp op src v hr.regs)

theorem BodyOutcome.of_incDec {s : State} {f : Form} {r : Reg} (x : AluResult) (hf : writesFlags f = true)
    (hd : destReg f = some r) (hc : x.c = s.carry) : BodyOutcome s f (.ok () ((s.set r x.r).set .f x.flags)) :=
  .completed ((((ReadsOnly.refl s).bodyFrame _).set r x.r).set .f x.flags) (.of_incDec x hf hd hc)

/-- The `(HL)` forms of `INC` and `DEC`: a read, a write of the result, then F. -/
theorem BodyOutcome.of_incDecAtHL {s : State} {f : Form} (x : Byte → AluResult) (hf : writesFlags f = true)
    (ha : storeAddr s f = some (s.getExt .hl)) (hc : ∀ v, (x v).c = s.carry) :
    BodyOutcome s f ((s.memRead (s.getExt .hl)).andThen fun v t =>
      (t.memWrite (s.getExt .hl) (x v).r).andThen fun _ u => .ok () (u.set .f (x v).flags)) :=
  .of_read fun v _ ht => .of_write ht ha fun _ hu hregs =>
    .completed (hu.set .f (x v).flags) (.of_flags (x v) hf (fun r _ => State.get_congr hregs r) (fun _ => hc v))

/-- Whatever its form, a body completes within its frames or fails having only read. -/
theorem bodyOf_outcome (s : State) (f : Form) : BodyOutcome s f (bodyOf s f) := by
  cases f with
  | ldRegReg dst src => exact .of_load _ (.refl s) rfl rfl (opReg_ne_f dst)
  | ldRegImm dst n => exact .of_load n (.refl s) rfl rfl (opReg_ne_f dst)
  | ldRegInd dst => exact .of_read fun v _ ht => .of_load v ht rfl rfl (opReg_ne_f dst)
  | ldAccPair p => exact .of_read fun v _ ht => .of_load v ht rfl rfl nofun
  | ldAccAbs nn => exact .of_read fun v _ ht => .of_load v ht rfl rfl nofun
  | ldAccPort => exact .of_read fun v _ ht => .of_load v ht rfl rfl nofun
  | ldIndReg src => exact .of_store rfl rfl
  | ldPairAcc p => exact .of_store rfl rfl
  | ldAbsAcc nn => exact .of_store rfl rfl
  | ldPortAcc => exact .of_store rfl rfl
  | alu op src =>
    cases src with
    | reg r => exact .of_accOp op _ _ (.refl s)
    | indHL => exact .of_read fun v _ ht => .of_accOp op _ v ht
    | imm n => exact .of_accOp op _ n (.refl s)
  | inc x =>
    cases x with
    | reg r => exact .of_incDec (inc8 (s.get (opReg r)) s.carry) rfl rfl rfl
    | indHL => exact .of_incDecAtHL (fun v => inc8 v s.carry) rfl rfl (fun _ => rfl)
  | dec x =>
    cases x with
    | reg r => exact .of_incDec (dec8 (s.get (opReg r)) s.carry) rfl rfl rfl
    | indHL => exact .of_incDecAtHL (fun v => dec8 v s.carry) rfl rfl (fun _ => rfl)

/-! ### What an instruction and a step can do -/

/-- An instruction answers its body's state completed, or its body's failure taken (R127, R228). -/
theorem exec_cases {i : Instr} {s t : State} (h : exec i s = .next t) :
    (∃ u, BodyFrame (storeAddr s i.form) s u ∧ RegFrame i.form s u ∧ t = u.complete i.len i.cost) ∨
      (∃ k a u, ReadsOnly s u ∧ RunTimeFailure s.banks k a ∧ t = u.raise k a) := by
  rw [exec_eq_execForm] at h
  have hbody := bodyOf_outcome s i.form
  generalize bodyOf s i.form = body at h hbody
  cases hbody with
  | completed frame regs => cases h; exact Or.inl ⟨_, frame, regs, rfl⟩
  | failed reads why => cases h; exact Or.inr ⟨_, _, _, reads, why, rfl⟩

/-- A step that answers a state started from a clear latch, and either fetched an instruction and completed it, or failed, at the
fetch or in the instruction, having only read (R126, R228). -/
theorem step_cases {s t : State} (h : step s = .next t) :
    s.latch.faulted = false ∧
      ((∃ i u w, s.fetch = .ok i u ∧ ReadsOnly s u ∧ BodyFrame (storeAddr u i.form) u w ∧ RegFrame i.form u w ∧
          t = w.complete i.len i.cost) ∨
        (∃ k a u, ReadsOnly s u ∧ RunTimeFailure s.banks k a ∧ t = u.raise k a)) := by
  rcases step_def s with ⟨-, e⟩ | ⟨hf, i, u, hfetch, e⟩ | ⟨hf, k, a, u, hfetch, e⟩ <;> rw [e] at h
  · cases h
  · refine ⟨hf, ?_⟩
    have hu : ReadsOnly s u := by
      rcases s.fetch_cases with ⟨i', u', e', hu⟩ | ⟨a, u', e', -⟩ | ⟨op, u', e', -⟩ <;> rw [hfetch] at e' <;> cases e'
      exact hu
    rcases exec_cases h with ⟨w, hw, hregs, ht⟩ | ⟨k, a, w, hw, why, ht⟩
    · exact Or.inl ⟨i, u, w, hfetch, hu, hw, hregs, ht⟩
    · exact Or.inr ⟨k, a, w, hu.trans hw, hu.banks ▸ why, ht⟩
  · cases h
    refine ⟨hf, Or.inr ⟨k, a, u, ?_⟩⟩
    rcases s.fetch_cases with ⟨i, u', e', -⟩ | ⟨a', u', e', hu, hn⟩ | ⟨op, u', e', hu, hn⟩ <;> rw [hfetch] at e' <;> cases e'
    · exact ⟨hu, .unmapped hn, rfl⟩
    · exact ⟨hu, .undefined hn, rfl⟩

/-! ### The invariant -/

/-- A byte zero-extended, as the latch holds an opcode, has that byte as its low one. -/
theorem loByte_setWidth (op : Byte) : loByte (op.setWidth 16) = op := by
  apply BitVec.eq_of_toNat_eq
  simp only [loByte, BitVec.toNat_ofNat, BitVec.toNat_setWidth]
  omega

theorem latchTrue_of_not_faulted {s : State} (hf : s.latch.faulted = false) :
    s.latchTrue = true ↔ s.latch = Latch.clear := by
  simp [State.latchTrue, hf]

/-- A run-time failure taken leaves a latch that tells the truth. -/
theorem latchTrue_raise {s : State} {k : FailureKind} {a : Addr} (h : RunTimeFailure s.banks k a) :
    (s.raise k a).latchTrue = true := by
  cases h with
  | unmapped h => simp [State.latchTrue, h]
  | denied h hp => simp [State.latchTrue, h, hp]
  | @undefined op h =>
    have hop : op.toNat % 65536 < 256 := by omega
    simp [State.latchTrue, loByte_setWidth, h, hop]

/-- A write into a storage bank keeps the listed bytes in storage banks. -/
theorem memoryOwned_write {banks : List Bank} {m : Memory} {a : Addr} (v : Byte) (hm : memoryOwned banks m = true)
    (ha : storageOwned banks a = true) : memoryOwned banks (Memory.write m a.toNat v) = true := by
  simp only [memoryOwned, List.all_eq_true] at hm ⊢
  intro c hc
  rcases Memory.mem_write hc with hc | rfl
  · exact hm c hc
  · simpa using ha

theorem ReadsOnly.inv {s t : State} (h : ReadsOnly s t) (hs : s.Inv) : t.Inv := by
  rw [h.eq]
  exact hs

theorem State.Inv.raise {s : State} (hs : s.Inv) {k : FailureKind} {a : Addr} (h : RunTimeFailure s.banks k a) :
    (s.raise k a).Inv := by
  obtain ⟨hbanks, hwf, howned, -⟩ := hs
  exact ⟨hbanks, hwf, howned, latchTrue_raise h⟩

theorem BodyFrame.inv_complete {o : Option Addr} {s t : State} (h : BodyFrame o s t) (hs : s.Inv)
    (hf : s.latch.faulted = false) (len cost : Nat) : (t.complete len cost).Inv := by
  obtain ⟨hbanks, hwf, howned, hlatch⟩ := hs
  have hclear : t.latch = Latch.clear := by rw [h.latch, ← latchTrue_of_not_faulted hf, hlatch]
  have hlatch' : (t.complete len cost).latchTrue = true := by
    rw [latchTrue_of_not_faulted (by simp [hclear, Latch.clear])]
    exact hclear
  simp only [State.Inv, State.complete_banks, State.complete_mem, h.banks, hlatch', and_true]
  rcases h.mem with e | ⟨a, v, -, ha, e⟩ <;> rw [e]
  · exact ⟨hbanks, hwf, howned⟩
  · exact ⟨hbanks, Memory.wf_write a v hwf, memoryOwned_write v howned ha⟩

/-- Settles O6: a failed step leaves a latch that tells the truth, and a completed one stores only into a storage bank. -/
theorem stepKeepsInvariant : Obligations.StepKeepsInvariant := by
  intro s t hs h
  obtain ⟨hf, ⟨i, u, w, -, hu, hw, -, rfl⟩ | ⟨k, a, u, hu, why, rfl⟩⟩ := step_cases h
  · exact hw.inv_complete (hu.inv hs) (hu.latch ▸ hf) i.len i.cost
  · exact (hu.inv hs).raise (hu.banks.symm ▸ why)

/-! ### Steps and frames -/

/-- Settles O11: the two ends of a step, by what the latch says after it. -/
theorem completedStepAdvances : Obligations.CompletedStepAdvances := by
  intro s t hf h
  obtain ⟨-, ⟨i, u, w, hfetch, hu, hw, -, rfl⟩ | ⟨k, a, u, hu, -, rfl⟩⟩ := step_cases h
  · refine ⟨fun _ => ⟨i, u, hfetch, ?_, ?_⟩, fun ht => ?_⟩
    · rw [State.complete_pc, hw.pc, hu.pc]
    · rw [State.complete_cyc, hw.cyc, hu.cyc]
    · rw [State.complete_latch, hw.latch, hu.latch, hf] at ht
      cases ht
  · exact ⟨nofun, fun _ => ⟨hu.pc, hu.cyc⟩⟩

/-- Settles O57: a completed body keeps the registers of its frame, a failed one all of them. -/
theorem frameOfRegisters : Obligations.FrameOfRegisters := by
  intro i s t h r hr hd
  rcases exec_cases h with ⟨u, -, hregs, rfl⟩ | ⟨k, a, u, hu, -, rfl⟩
  · rw [State.get_complete, hregs.other r hr hd]
  · rw [State.get_raise, State.get_congr hu.regs]

/-- Settles O58: the flag clauses of a completed body's frame; a failed body leaves F and sets the latch. -/
theorem frameOfFlags : Obligations.FrameOfFlags := by
  intro i s t h
  rcases exec_cases h with ⟨u, -, hregs, rfl⟩ | ⟨k, a, u, hu, -, rfl⟩
  · exact ⟨hregs.flagsKept, fun hw _ => hregs.flagsLow hw, hregs.carryKept⟩
  · exact ⟨fun _ => by rw [State.raise_regs, hu.regs], fun _ => nofun, fun _ => by simp [carryBit, hu.regs]⟩

/-- Settles O60: neither end of an instruction touches SP or the configuration, and a failed one has only read. -/
theorem frameOfSpecialState : Obligations.FrameOfSpecialState := by
  intro i s t h
  rcases exec_cases h with ⟨u, hu, -, rfl⟩ | ⟨k, a, u, hu, -, rfl⟩
  · exact ⟨hu.sp, hu.banks, hu.resetPc, Or.inl hu.latch, hu.events⟩
  · have hlatch : (u.raise k a).latch = ⟨true, k, a, s.pc⟩ := by rw [State.raise_latch, hu.pc]
    exact ⟨hu.sp, hu.banks, hu.resetPc, Or.inr ⟨k, a, hlatch, hu.pc, hu.cyc, hu.regs, hu.mem⟩, hu.storage⟩

end Sys2Proof.Machine

/-! SUPPORT. SP and the cycle counter are written and never read: every operation of a step commutes with a change of the two. -/
namespace Sys2Proof.Machine

/-- The state with another SP and the cycle counter ahead: a change of the two fields that no operation reads (R27, R258). -/
def State.shifted (s : State) (sp : Addr) (n : Nat) : State := { s with sp := sp, cyc := s.cyc + n }

/-- An access with the state it leaves changed. -/
def Access.mapState {α : Type} (g : State → State) : Access α → Access α
  | .ok v s       => .ok v (g s)
  | .failed k a s => .failed k a (g s)

@[simp] theorem Access.mapState_ok {α : Type} (g : State → State) (v : α) (s : State) :
    (Access.ok v s).mapState g = .ok v (g s) := rfl

@[simp] theorem Access.mapState_failed {α : Type} (g : State → State) (k : FailureKind) (a : Addr) (s : State) :
    (Access.failed k a s : Access α).mapState g = .failed k a (g s) := rfl

/-- A change that commutes with the rest of an operation commutes with the whole. -/
theorem Access.mapState_andThen {α β : Type} {g : State → State} {f f' : α → State → Access β} (x : Access α)
    (h : ∀ v s, f' v (g s) = (f v s).mapState g) : (x.mapState g).andThen f' = (x.andThen f).mapState g := by
  cases x with
  | ok v s => exact h v s
  | failed k a s => rfl

section
variable (s : State) (sp : Addr) (n : Nat)

@[simp] theorem State.get_shifted (r : Reg) : (s.shifted sp n).get r = s.get r := by cases r <;> rfl

@[simp] theorem State.carry_shifted : (s.shifted sp n).carry = s.carry := rfl

@[simp] theorem State.byteAt_shifted (b : Bank) (a : Addr) : (s.shifted sp n).byteAt b a = s.byteAt b a := rfl

@[simp] theorem State.portAddr_shifted (o : Reg) (base : Addr) : (s.shifted sp n).portAddr o base = s.portAddr o base := by
  simp [State.portAddr]

@[simp] theorem State.getExt_hl_shifted : (s.shifted sp n).getExt .hl = s.getExt .hl := rfl

@[simp] theorem State.getExt_accPair_shifted (p : AccPair) :
    (s.shifted sp n).getExt (accPair p) = s.getExt (accPair p) := by cases p <;> rfl

theorem State.set_shifted (r : Reg) (v : Byte) : (s.shifted sp n).set r v = (s.set r v).shifted sp n := rfl

theorem State.accOp_shifted (op : AluOp) (v : Byte) : accOp op (s.shifted sp n) v = (accOp op s v).shifted sp n := by
  cases op <;> rfl

theorem State.noteRead_shifted (b : Bank) (a : Addr) : (s.shifted sp n).noteRead b a = (s.noteRead b a).shifted sp n := by
  unfold State.noteRead
  cases b.kind <;> rfl

theorem State.storeAt_shifted (b : Bank) (v : Byte) (a : Addr) :
    (s.shifted sp n).storeAt b v a = (s.storeAt b v a).shifted sp n := by
  unfold State.storeAt
  cases b.kind <;> rfl

theorem State.memRead_shifted (a : Addr) : (s.shifted sp n).memRead a = (s.memRead a).mapState (·.shifted sp n) := by
  rcases s.memRead_cases a with ⟨hn, e⟩ | ⟨b, hb, e⟩ <;> rw [e]
  · exact State.memRead_none hn
  · rw [State.memRead_some (s := s.shifted sp n) hb, State.byteAt_shifted, State.noteRead_shifted]
    rfl

theorem State.memWrite_shifted (a : Addr) (v : Byte) :
    (s.shifted sp n).memWrite a v = (s.memWrite a v).mapState (·.shifted sp n) := by
  rcases s.memWrite_cases a v with ⟨hn, e⟩ | ⟨b, hb, hp, e⟩ | ⟨b, hb, hp, e⟩ <;> rw [e]
  · exact State.memWrite_none hn
  · exact State.memWrite_readOnly (s := s.shifted sp n) hb hp
  · rw [State.memWrite_readWrite (s := s.shifted sp n) hb hp, State.storeAt_shifted]
    rfl

/-- A body that begins with a read. -/
theorem State.read_shifted {α : Type} (a : Addr) {f f' : Byte → State → Access α}
    (h : ∀ v t, f' v (t.shifted sp n) = (f v t).mapState (·.shifted sp n)) :
    ((s.shifted sp n).memRead a).andThen f' = ((s.memRead a).andThen f).mapState (·.shifted sp n) := by
  rw [State.memRead_shifted]
  exact Access.mapState_andThen _ h

/-- The `(HL)` forms of `INC` and `DEC`: the read, the write and F. -/
theorem State.incDecAtHL_shifted (a : Addr) (x : Byte → AluResult) :
    (((s.shifted sp n).memRead a).andThen fun v t => (t.memWrite a (x v).r).andThen fun _ u => .ok () (u.set .f (x v).flags)) =
      ((s.memRead a).andThen fun v t =>
        (t.memWrite a (x v).r).andThen fun _ u => .ok () (u.set .f (x v).flags)).mapState (·.shifted sp n) := by
  refine State.read_shifted s sp n a fun v t => ?_
  rw [State.memWrite_shifted]
  exact Access.mapState_andThen _ fun _ _ => rfl

theorem bodyOf_shifted (f : Form) : bodyOf (s.shifted sp n) f = (bodyOf s f).mapState (·.shifted sp n) := by
  cases f with
  | ldRegReg dst src => simp [bodyOf, State.loadFromRegister, State.set_shifted]
  | ldRegImm dst v => simp [bodyOf, State.loadFromValue, State.set_shifted]
  | ldRegInd dst => exact State.read_shifted s sp n _ fun _ _ => rfl
  | ldAccPair p =>
    simp only [bodyOf, State.loadFromAddress, State.getExt_accPair_shifted]
    exact State.read_shifted s sp n _ fun _ _ => rfl
  | ldAccAbs nn => exact State.read_shifted s sp n _ fun _ _ => rfl
  | ldAccPort => exact State.read_shifted s sp n _ fun _ _ => rfl
  | ldIndReg src => simp [bodyOf, State.putToAddress, State.memWrite_shifted]
  | ldPairAcc p => simp [bodyOf, State.putToAddress, State.memWrite_shifted]
  | ldAbsAcc nn => simp [bodyOf, State.putToAbsolute, State.memWrite_shifted]
  | ldPortAcc => simp [bodyOf, State.putToPort, State.memWrite_shifted]
  | alu op src =>
    cases src with
    | reg r => simp [bodyOf, State.aluReg, State.accOp_shifted]
    | indHL => exact State.read_shifted s sp n _ fun v t => by simp [State.accOp_shifted]
    | imm v => simp [bodyOf, State.aluImm, State.accOp_shifted]
  | inc x =>
    cases x with
    | reg r => simp [bodyOf, State.incReg, State.set_shifted]
    | indHL => exact State.incDecAtHL_shifted s sp n _ fun v => inc8 v s.carry
  | dec x =>
    cases x with
    | reg r => simp [bodyOf, State.decReg, State.set_shifted]
    | indHL => exact State.incDecAtHL_shifted s sp n _ fun v => dec8 v s.carry

/-- Completing a step adds to the counter, whatever it stands at. -/
theorem State.complete_shifted (len cost : Nat) :
    (s.shifted sp n).complete len cost = (s.complete len cost).shifted sp n := by
  simp [State.shifted, State.complete, Nat.add_right_comm]

theorem settle_shifted (len cost : Nat) (x : Access Unit) :
    settle len cost (x.mapState (·.shifted sp n)) = mapNext (·.shifted sp n) (settle len cost x) := by
  cases x with
  | ok v s => exact congrArg Host.Outcome.next (State.complete_shifted s sp n len cost)
  | failed k a s => rfl

theorem exec_shifted (i : Instr) : exec i (s.shifted sp n) = mapNext (·.shifted sp n) (exec i s) := by
  rw [exec_eq_execForm, exec_eq_execForm, bodyOf_shifted, settle_shifted]

theorem State.fetch_shifted : (s.shifted sp n).fetch = s.fetch.mapState (·.shifted sp n) := by
  refine State.read_shifted s sp n _ fun op t => ?_
  cases lookupOpcode op with
  | none => rfl
  | some layout =>
    cases layout with
    | s i => rfl
    | i f => exact State.read_shifted t sp n _ fun _ _ => rfl
    | w f => exact State.read_shifted t sp n _ fun _ u => State.read_shifted u sp n _ fun _ _ => rfl

/-- A step neither reads SP nor the cycle counter. -/
theorem step_shifted : step (s.shifted sp n) = mapNext (·.shifted sp n) (step s) := by
  rcases step_def s with ⟨hf, e⟩ | ⟨hf, i, t, hfetch, e⟩ | ⟨hf, k, a, t, hfetch, e⟩ <;> rw [e]
  · exact if_pos hf
  all_goals
    have hf' : ¬ (s.shifted sp n).latch.faulted = true := by simpa [State.shifted] using hf
    rw [step, if_neg hf', State.fetch_shifted, hfetch]
  · exact exec_shifted t sp n i
  · rfl

end

/-- Settles O14: the change of SP alone, with the counter 0 ahead. -/
theorem stackPointerNeverMatters : Obligations.StackPointerNeverMatters :=
  fun s x => step_shifted s x 0

end Sys2Proof.Machine

/-! SUPPORT. The register file and the extended registers, as the host reads and writes them (R20 to R26). -/
namespace Sys2Proof.Machine

theorem toNat_wordOf (hi lo : Byte) : (wordOf hi lo).toNat = hi.toNat * 256 + lo.toNat := by
  have := hi.isLt
  have := lo.isLt
  simp only [wordOf, BitVec.toNat_ofNat]
  omega

theorem toNat_hiByte (w : Addr) : (hiByte w).toNat = w.toNat / 256 := by
  have := w.isLt
  simp only [hiByte, BitVec.toNat_ofNat]
  omega

theorem toNat_loByte (w : Addr) : (loByte w).toNat = w.toNat % 256 := BitVec.toNat_ofNat ..

/-- An extended register reads as it was set, a pair through its two halves (R26). -/
theorem State.getExt_setExt (s : State) (v : Addr) (p : ExtReg) : (s.setExt v p).getExt p = v := by
  cases p with
  | bc | de | hl => exact wordOf_hiByte_loByte v
  | sp | pc => rfl

/-- Settles O21: a pair is the 16-bit word of its halves. -/
theorem pairComposition : Obligations.PairComposition :=
  fun s => ⟨toNat_wordOf s.regs.b s.regs.c, toNat_wordOf s.regs.d s.regs.e, toNat_wordOf s.regs.h s.regs.l⟩

/-- Settles O22: the round trip of `setExt`, and the bytes a pair's halves are set to. -/
theorem extendedRegisterRoundTrip : Obligations.ExtendedRegisterRoundTrip := by
  intro s n v
  have hi : (hiByte (BitVec.ofNat 16 n)).toNat = n % 65536 / 256 := by rw [toNat_hiByte, BitVec.toNat_ofNat]
  have lo : (loByte (BitVec.ofNat 16 n)).toNat = n % 256 := by
    rw [toNat_loByte, BitVec.toNat_ofNat]
    omega
  have pair (p : ExtReg) : ((s.setExtNat p n).getExt p).toNat = n % 65536 := by
    rw [State.setExtNat, State.getExt_setExt, BitVec.toNat_ofNat]
  exact ⟨pair, hi, lo, hi, lo, hi, lo, rfl, rfl, rfl, rfl, rfl, rfl⟩

/-- Settles O23: `get` after `set` of the same register and of another one. -/
theorem registerSetGet : Obligations.RegisterSetGet := by
  intro s r n
  refine ⟨?_, fun r' hr => ?_, rfl⟩
  · rw [State.setNat, State.get_set_same, BitVec.toNat_ofNat]
  · exact State.get_set_other s _ hr

end Sys2Proof.Machine

/-! SUPPORT. Banks and the address space, as the host and the instructions use them (R50 to R63): what each bank operation answers
outside the bank's range, on a denied write and else; what a span of bytes reads and stores; and that among registered banks the
lookup finds the one bank that owns the address. -/
namespace Sys2Proof

/-! ### Ranges -/

theorem Bank.owns_iff {b : Bank} {a : Nat} : b.owns a = true ↔ b.offset ≤ a ∧ a < b.offset + b.size := by
  simp [Bank.owns]

theorem Bank.owns_eq_false_iff {b : Bank} {a : Nat} : b.owns a = false ↔ a < b.offset ∨ b.offset + b.size ≤ a := by
  rw [← Bool.not_eq_true, Bank.owns_iff]
  omega

theorem Bank.ownsSpan_iff {b : Bank} {a len : Nat} :
    b.ownsSpan a len = true ↔ b.offset ≤ a ∧ a + len ≤ b.offset + b.size := by
  simp [Bank.ownsSpan]

theorem Bank.ownsSpan_eq_false_iff {b : Bank} {a len : Nat} :
    b.ownsSpan a len = false ↔ a < b.offset ∨ b.offset + b.size < a + len := by
  rw [← Bool.not_eq_true, Bank.ownsSpan_iff]
  omega

/-- A well-formed bank's spans do not wrap around the 16-bit space (R59). -/
theorem Bank.span_le_of_wellFormed {b : Bank} {a len : Nat} (hb : b.wellFormed = true) (h : b.ownsSpan a len = true) :
    a + len ≤ 0x10000 := by
  obtain ⟨-, hend⟩ := Bank.ownsSpan_iff.1 h
  simp only [Bank.wellFormed, Bool.and_eq_true, decide_eq_true_eq] at hb
  omega

theorem Bank.overlaps_of_owns {x y : Bank} {a : Nat} (hx : x.owns a = true) (hy : y.owns a = true) : x.overlaps y = true := by
  rw [Bank.owns_iff] at hx hy
  simp only [Bank.overlaps, Bool.and_eq_true, decide_eq_true_eq]
  omega

theorem banksWellFormed_cons {b : Bank} {bs : List Bank} :
    banksWellFormed (b :: bs) = true ↔
      b.wellFormed = true ∧ (∀ x ∈ bs, x.overlaps b = false) ∧ banksWellFormed bs = true := by
  simp [banksWellFormed, and_assoc]

/-- Registered banks are disjoint: at most one owns an address (R60). -/
theorem owner_unique {banks : List Bank} (hw : banksWellFormed banks = true) {x y : Bank} {a : Nat} (hx : x ∈ banks)
    (hy : y ∈ banks) (hxa : x.owns a = true) (hya : y.owns a = true) : x = y := by
  induction banks with
  | nil => cases hx
  | cons b bs ih =>
    obtain ⟨-, hdisj, hbs⟩ := banksWellFormed_cons.1 hw
    rcases List.mem_cons.1 hx with rfl | hxs <;> rcases List.mem_cons.1 hy with rfl | hys
    · rfl
    · exact absurd (Bank.overlaps_of_owns hya hxa) (by simp [hdisj y hys])
    · exact absurd (Bank.overlaps_of_owns hxa hya) (by simp [hdisj x hxs])
    · exact ih hbs hxs hys

end Sys2Proof

namespace Sys2Proof.Machine

/-! ### One byte of a bank -/

section
variable (s : State) {b : Bank} {a : Addr} (v : Byte)

theorem State.byteAt_storage (h : b.kind = .storage) : s.byteAt b a = Memory.read s.mem a.toNat := by
  simp [State.byteAt, h]

theorem State.noteRead_storage (h : b.kind = .storage) : s.noteRead b a = s := by
  simp [State.noteRead, h]

theorem State.storeAt_storage (h : b.kind = .storage) :
    s.storeAt b v a = { s with mem := Memory.write s.mem a.toNat v } := by
  simp [State.storeAt, h]

theorem State.bankRead_outside (h : b.owns a.toNat = false) : s.bankRead b a = .failed .outOfRange a s := by
  simp [State.bankRead, h]

theorem State.bankRead_inside (h : b.owns a.toNat = true) : s.bankRead b a = .ok (s.byteAt b a) (s.noteRead b a) := by
  simp [State.bankRead, h]

theorem State.bankWrite_outside (h : b.owns a.toNat = false) : s.bankWrite b v a = .failed .outOfRange a s := by
  simp [State.bankWrite, h]

theorem State.bankWrite_readOnly (h : b.owns a.toNat = true) (hp : b.perm = .readOnly) :
    s.bankWrite b v a = .failed .permissionDenied a s := by
  simp [State.bankWrite, h, hp]

theorem State.bankWrite_readWrite (h : b.owns a.toNat = true) (hp : b.perm = .readWrite) :
    s.bankWrite b v a = .ok () (s.storeAt b v a) := by
  simp [State.bankWrite, h, hp]

end

/-- Settles O24: the two sides of the bounds check. -/
theorem bankReadChecksBounds : Obligations.BankReadChecksBounds := by
  intro s b a
  refine ⟨fun hout => s.bankRead_outside (Bank.owns_eq_false_iff.2 hout), fun hlo hhi hk => ?_⟩
  rw [s.bankRead_inside (Bank.owns_iff.2 ⟨hlo, hhi⟩), s.byteAt_storage hk, s.noteRead_storage hk]

/-- Settles O25: the bounds check, then the two permissions. -/
theorem bankWriteChecksBoundsThenPermission : Obligations.BankWriteChecksBoundsThenPermission := by
  intro s b v a
  refine ⟨fun hout => s.bankWrite_outside v (Bank.owns_eq_false_iff.2 hout), fun hlo hhi => ?_⟩
  have hin : b.owns a.toNat = true := Bank.owns_iff.2 ⟨hlo, hhi⟩
  refine ⟨s.bankWrite_readOnly v hin, fun hp hk => ?_⟩
  rw [s.bankWrite_readWrite v hin hp, s.storeAt_storage v hk]

/-! ### Spans of a bank -/

/-- The address after `a`; after the last one comes 0. -/
theorem toNat_addr_succ (a : Addr) : (a + 1).toNat = (a.toNat + 1) % 0x10000 := BitVec.toNat_add a 1

section
variable (s : State) {b : Bank} {a : Addr} {len : Nat} {vs : List Byte}

theorem State.bankReadRange_empty : s.bankReadRange b a 0 = .refused .emptyRange := rfl

theorem State.bankReadRange_outside (hlen : 1 ≤ len) (h : b.ownsSpan a.toNat len = false) :
    s.bankReadRange b a len = .next (.failed .outOfRange a s) := by
  have hne : len ≠ 0 := by omega
  simp [State.bankReadRange, h, hne]

theorem State.bankReadRange_inside (hlen : 1 ≤ len) (h : b.ownsSpan a.toNat len = true) :
    s.bankReadRange b a len = .next (s.readSpan b len a) := by
  have hne : len ≠ 0 := by omega
  simp [State.bankReadRange, h, hne]

theorem State.bankWriteRange_empty : s.bankWriteRange b [] a = .refused .emptyRange := rfl

theorem State.bankWriteRange_outside (hvs : vs ≠ []) (h : b.ownsSpan a.toNat vs.length = false) :
    s.bankWriteRange b vs a = .next (.failed .outOfRange a s) := by
  simp [State.bankWriteRange, h, hvs]

theorem State.bankWriteRange_readOnly (hvs : vs ≠ []) (h : b.ownsSpan a.toNat vs.length = true) (hp : b.perm = .readOnly) :
    s.bankWriteRange b vs a = .next (.failed .permissionDenied a s) := by
  simp [State.bankWriteRange, h, hvs, hp]

theorem State.bankWriteRange_readWrite (hvs : vs ≠ []) (h : b.ownsSpan a.toNat vs.length = true)
    (hp : b.perm = .readWrite) : s.bankWriteRange b vs a = .next (.ok () (s.storeSpan b vs a)) := by
  simp [State.bankWriteRange, h, hvs, hp]

end

/-- The bytes of a storage bank's span that does not wrap, ascending; reading them changes nothing (R53). -/
theorem State.readSpan_storage (s : State) {b : Bank} (hk : b.kind = .storage) {len : Nat} {a : Addr}
    (hspan : a.toNat + len ≤ 0x10000) :
    s.readSpan b len a = .ok ((List.range len).map fun k => Memory.read s.mem (a.toNat + k)) s := by
  induction len generalizing a with
  | zero => rfl
  | succ len ih =>
    have hsucc := toNat_addr_succ a
    have htail : (List.range len).map (fun k => Memory.read s.mem ((a + 1).toNat + k)) =
        (List.range len).map fun k => Memory.read s.mem (a.toNat + (k + 1)) := by
      refine List.map_congr_left fun k hkl => ?_
      have := List.mem_range.1 hkl
      rw [show (a + 1).toNat + k = a.toNat + (k + 1) by omega]
    rw [State.readSpan, s.noteRead_storage hk, ih (by omega), Access.andThen_ok, s.byteAt_storage hk, htail,
      List.range_succ_eq_map, List.map_cons, List.map_map]
    rfl

/-- Storing a span into a storage bank changes memory alone. -/
theorem State.storeSpan_storage (s : State) {b : Bank} (hk : b.kind = .storage) (vs : List Byte) (a : Addr) :
    s.storeSpan b vs a = { s with mem := (s.storeSpan b vs a).mem } := by
  induction vs generalizing s a with
  | nil => rfl
  | cons v vs ih =>
    rw [State.storeSpan, ih, s.storeAt_storage v hk]

/-- Outside the span, storing it changes no byte. -/
theorem State.read_storeSpan_other (s : State) (b : Bank) {vs : List Byte} {a : Addr} {x : Nat}
    (hspan : a.toNat + vs.length ≤ 0x10000) (hx : x < a.toNat ∨ a.toNat + vs.length ≤ x) :
    Memory.read (s.storeSpan b vs a).mem x = Memory.read s.mem x := by
  induction vs generalizing s a with
  | nil => rfl
  | cons v vs ih =>
    rw [List.length_cons] at hspan hx
    have hsucc := toNat_addr_succ a
    rw [State.storeSpan, ih _ (by omega) (by omega), s.read_storeAt_other b v (by omega)]

/-- In a storage bank over canonical memory, the byte stored is the byte read. -/
theorem State.read_storeAt_same (s : State) {b : Bank} (hk : b.kind = .storage) (hm : Memory.wf s.mem = true) (v : Byte)
    (a : Addr) : Memory.read (s.storeAt b v a).mem a.toNat = v := by
  rw [s.storeAt_storage v hk]
  exact Memory.read_write_same a.toNat v hm

/-- Inside the span, each byte stored is the byte read at its ascending address (R55). -/
theorem State.read_storeSpan_same (s : State) {b : Bank} (hk : b.kind = .storage) (hm : Memory.wf s.mem = true)
    {vs : List Byte} {a : Addr} (hspan : a.toNat + vs.length ≤ 0x10000) (k : Nat) (h : k < vs.length) :
    Memory.read (s.storeSpan b vs a).mem (a.toNat + k) = vs[k] := by
  induction vs generalizing s a k with
  | nil => cases h
  | cons v vs ih =>
    rw [List.length_cons] at hspan h
    have hsucc := toNat_addr_succ a
    cases k with
    | zero =>
      rw [State.storeSpan, State.read_storeSpan_other _ b (by omega) (by omega)]
      exact s.read_storeAt_same hk hm v a
    | succ k =>
      have hk' : a.toNat + (k + 1) = (a + 1).toNat + k := by omega
      rw [State.storeSpan, hk']
      exact ih _ (State.wf_storeAt b v a hm) (by omega) k (by omega)

/-- Settles O27: the check of length and bounds, and then the span's bytes. -/
theorem rangeReadReturnsTheSpan : Obligations.RangeReadReturnsTheSpan := by
  intro s b a len
  refine ⟨fun h => h ▸ s.bankReadRange_empty,
    fun hlen hout => s.bankReadRange_outside hlen (Bank.ownsSpan_eq_false_iff.2 hout), fun hlen hlo hhi hb hk => ?_⟩
  have hin : b.ownsSpan a.toNat len = true := Bank.ownsSpan_iff.2 ⟨hlo, hhi⟩
  rw [s.bankReadRange_inside hlen hin, s.readSpan_storage hk (Bank.span_le_of_wellFormed hb hin)]

/-- Settles O28: the checks of length, bounds and permission come before the first byte is stored. -/
theorem rangeWriteIsAllOrNothing : Obligations.RangeWriteIsAllOrNothing := by
  intro s b vs a
  refine ⟨fun h => h ▸ s.bankWriteRange_empty,
    fun hvs hout => s.bankWriteRange_outside hvs (Bank.ownsSpan_eq_false_iff.2 hout), fun hvs hlo hhi => ?_⟩
  have hin : b.ownsSpan a.toNat vs.length = true := Bank.ownsSpan_iff.2 ⟨hlo, hhi⟩
  refine ⟨s.bankWriteRange_readOnly hvs hin, fun hp hm hb hk => ?_⟩
  have hspan : a.toNat + vs.length ≤ 0x10000 := Bank.span_le_of_wellFormed hb hin
  exact ⟨s.storeSpan b vs a, s.bankWriteRange_readWrite hvs hin hp, s.storeSpan_storage hk vs a, State.wf_storeSpan b vs a hm,
    s.read_storeSpan_same hk hm hspan, fun _ hx => s.read_storeSpan_other b hspan hx⟩

/-! ### The address space -/

theorem ownerOf_eq_none_iff {banks : List Bank} {a : Addr} :
    ownerOf banks a = none ↔ ∀ b ∈ banks, b.owns a.toNat = false := by
  simp [ownerOf]

/-- Among registered banks the lookup finds whichever bank owns the address, so their order has no effect (R60). -/
theorem ownerOf_eq_some_iff {banks : List Bank} (hw : banksWellFormed banks = true) {a : Addr} {b : Bank} :
    ownerOf banks a = some b ↔ b ∈ banks ∧ b.owns a.toNat = true := by
  refine ⟨fun h => ⟨mem_of_ownerOf h, owns_of_ownerOf h⟩, fun ⟨hb, hown⟩ => ?_⟩
  cases h : ownerOf banks a with
  | none => simp [ownerOf_eq_none_iff.1 h b hb] at hown
  | some c => rw [owner_unique hw (mem_of_ownerOf h) hb (owns_of_ownerOf h) hown]

/-- Settles O30: the lookup finds the owner, or there is none. -/
theorem readsAreRouted : Obligations.ReadsAreRouted := by
  intro s a
  refine ⟨fun h => State.memRead_none (ownerOf_eq_none_iff.2 h), fun b hb hw hown => ?_⟩
  have hread := State.memRead_some ((ownerOf_eq_some_iff hw).2 ⟨hb, hown⟩)
  exact ⟨hread.trans (s.bankRead_inside hown).symm, _, _, hread⟩

/-- Settles O31: the lookup finds the owner, whose permission decides, or there is none. -/
theorem writesAreRouted : Obligations.WritesAreRouted := by
  intro s a v
  refine ⟨fun h => State.memWrite_none (ownerOf_eq_none_iff.2 h), fun b hb hw hown => ?_⟩
  have howner : ownerOf s.banks a = some b := (ownerOf_eq_some_iff hw).2 ⟨hb, hown⟩
  refine ⟨?_, State.memWrite_readOnly howner, fun hp => ⟨_, State.memWrite_readWrite howner hp⟩⟩
  rw [State.memWrite, howner]

end Sys2Proof.Machine


/-! SUPPORT. The decoder and the encoder meet at the opcode table, row by row (R91, R95, R102), and the opcodes that have no row
(R104, R131). -/
namespace Sys2Proof.Machine

/-! ### What a format makes of operand bytes -/

/-- The instruction a format makes of the operand bytes after its opcode, a 16-bit address low byte first (R91, R95). -/
inductive Makes : Layout → List Byte → Instr → Prop
  | s (i : Instr) : Makes (.s i) [] i
  | i (f : Byte → Instr) (n : Byte) : Makes (.i f) [n] (f n)
  | w (f : Addr → Instr) (nn : Addr) : Makes (.w f) [loByte nn, hiByte nn] (f nn)

theorem makes_wordOf (f : Addr → Instr) (lo hi : Byte) : Makes (.w f) [lo, hi] (f (wordOf hi lo)) := by
  have h := Makes.w f (wordOf hi lo)
  rwa [loByte_wordOf, hiByte_wordOf] at h

/-- What `decode` takes for an instruction: an opcode that has an entry, the operand bytes of its format, and any rest. -/
theorem decode_eq_instr_iff {bytes rest : List Byte} {i : Instr} :
    decode bytes = .instr i rest ↔
      ∃ op layout operands, lookupOpcode op = some layout ∧ Makes layout operands i ∧ bytes = op :: operands ++ rest := by
  constructor
  · fun_cases decode bytes with
    | case3 op _ _ hl => rintro ⟨⟩; exact ⟨op, _, [], hl, .s i, rfl⟩
    | case4 op f hl n => rintro ⟨⟩; exact ⟨op, _, [n], hl, .i f n, rfl⟩
    | case6 op f hl lo hi => rintro ⟨⟩; exact ⟨op, _, [lo, hi], hl, makes_wordOf f lo hi, rfl⟩
    | _ => rintro ⟨⟩
  · rintro ⟨op, layout, operands, hl, hm, rfl⟩
    cases hm <;> simp [decode, hl, wordOf_hiByte_loByte]

/-! ### The table and the encoder agree -/

/-- From the encoder to the table: an instruction's opcode has an entry, whose format makes it of its operand bytes. -/
theorem lookupOpcode_opcode (i : Instr) :
    ∃ layout, lookupOpcode i.opcode = some layout ∧ Makes layout i.form.operands i := by
  cases i <;> exact ⟨_, rfl, by constructor⟩

/-- From the table to the encoder: what a row makes of operand bytes is encoded as its opcode and these bytes. -/
theorem encode_of_makes {row : Row} {operands : List Byte} {i : Instr} (hrow : row ∈ opcodeTable)
    (hm : Makes row.layout operands i) : encode i = row.opcode :: operands := by
  fin_cases hrow <;> cases hm <;> rfl

theorem mem_opcodeTable_of_lookupOpcode {op : Byte} {layout : Layout} (h : lookupOpcode op = some layout) :
    ⟨op, layout⟩ ∈ opcodeTable := by
  obtain ⟨row, hrow, rfl⟩ := Option.map_eq_some_iff.1 h
  obtain rfl : row.opcode = op := by simpa using List.find?_some hrow
  exact List.mem_of_find?_eq_some hrow

/-- Settles O16: the encoding is an opcode with an entry and the operand bytes of that entry's format. -/
theorem decodeOfEncode : Obligations.DecodeOfEncode := by
  intro i rest
  obtain ⟨layout, hl, hm⟩ := lookupOpcode_opcode i
  exact decode_eq_instr_iff.2 ⟨i.opcode, layout, i.form.operands, hl, hm, rfl⟩

/-- Settles O17: what decodes went through one row of the table, and each row agrees with the encoder. -/
theorem encodeOfDecode : Obligations.EncodeOfDecode := by
  intro bytes rest i h
  obtain ⟨op, layout, operands, hl, hm, rfl⟩ := decode_eq_instr_iff.1 h
  rw [encode_of_makes (mem_opcodeTable_of_lookupOpcode hl) hm]

/-! ### Opcodes without an entry -/

/-- The list of R104 is what the table of R102 leaves of the 256 bytes. -/
theorem undefinedOpcodes_eq_filter :
    undefinedOpcodes = (List.range 256).filter (· ∉ opcodeTable.map (·.opcode.toNat)) := by
  decide

theorem lookupOpcode_eq_none_iff {op : Byte} : lookupOpcode op = none ↔ op.toNat ∈ undefinedOpcodes := by
  have hnone : lookupOpcode op = none ↔ op.toNat ∉ opcodeTable.map (·.opcode.toNat) := by
    simp [lookupOpcode, BitVec.toNat_inj]
  have hlt : op.toNat < 256 := op.isLt
  rw [hnone, undefinedOpcodes_eq_filter, List.mem_filter, List.mem_range, decide_eq_true_iff, and_iff_right hlt]

/-- The fetch of an opcode without an entry fails after that one read (R131). -/
theorem State.fetch_undefined {s : State} {b : Bank} (hb : ownerOf s.banks s.pc = some b)
    (hop : lookupOpcode (s.byteAt b s.pc) = none) :
    s.fetch = .failed .undefinedOpcode (BitVec.ofNat 16 (s.byteAt b s.pc).toNat) (s.noteRead b s.pc) := by
  have hread : s.fetchByte 0 = .ok (s.byteAt b s.pc) (s.noteRead b s.pc) := by
    simpa [State.fetchByte] using State.memRead_some hb
  simp [State.fetch, hread, hop]

theorem step_of_fetch_failed {s t : State} {k : FailureKind} {info : Addr} (hf : s.latch.faulted = false)
    (h : s.fetch = .failed k info t) : step s = .next (t.raise k info) := by
  simp [step, hf, h]

/-- Settles O13: the lookup finds no entry, so the fetch fails, and the step takes that failure. -/
theorem undefinedOpcodeTraps : Obligations.UndefinedOpcodeTraps := by
  refine ⟨fun op => lookupOpcode_eq_none_iff, rfl, fun s b hf hb hop => ?_⟩
  have hfetch := State.fetch_undefined hb (lookupOpcode_eq_none_iff.2 hop)
  simp [step_of_fetch_failed hf hfetch, State.raise]

end Sys2Proof.Machine


/-! SUPPORT. The dispatch table builds from exactly the lists whose opcodes are all different (R122), and what one instruction leaves
of memory. -/
namespace Sys2Proof.Machine

/-! ### Building the table -/

theorem opcodesUnique_iff_nodup {ops : List Byte} : opcodesUnique ops = true ↔ ops.Nodup := by
  induction ops with
  | nil => simp [opcodesUnique]
  | cons op ops ih => simp [opcodesUnique, ih]

theorem addRow_new {table : List Row} {row : Row} (h : row.opcode ∉ table.map Row.opcode) :
    addRow table row = .ok (table ++ [row]) := by
  simpa [addRow] using h

theorem addRow_duplicate {table : List Row} {row : Row} (h : row.opcode ∈ table.map Row.opcode) :
    addRow table row = .error (.duplicateOpcode row.opcode) := by
  simpa [addRow] using h

theorem addRows_cons_new {table : List Row} {row : Row} (rows : List Row) (h : row.opcode ∉ table.map Row.opcode) :
    addRows table (row :: rows) = addRows (table ++ [row]) rows := by
  rw [addRows, inOrder_cons, addRow_new h]; rfl

theorem addRows_cons_duplicate {table : List Row} {row : Row} (rows : List Row) (h : row.opcode ∈ table.map Row.opcode) :
    addRows table (row :: rows) = .error (.duplicateOpcode row.opcode) := by
  rw [addRows, inOrder_cons, addRow_duplicate h]; rfl

/-- Rows added to a table without a duplicate: they all go in when the whole has none either, and else one of their opcodes is
reported (R122, R225). -/
theorem addRows_cases {table : List Row} (rows : List Row) (ht : (table.map Row.opcode).Nodup) :
    (((table ++ rows).map Row.opcode).Nodup ∧ addRows table rows = .ok (table ++ rows)) ∨
      (¬ ((table ++ rows).map Row.opcode).Nodup ∧ ∃ op, addRows table rows = .error (.duplicateOpcode op)) := by
  induction rows generalizing table with
  | nil => exact Or.inl ⟨by simpa using ht, by simp [addRows]⟩
  | cons row rows ih =>
    by_cases hmem : row.opcode ∈ table.map Row.opcode
    · have hdup : ¬ ((table ++ row :: rows).map Row.opcode).Nodup := fun hnd => by
        rw [List.map_append, List.map_cons] at hnd
        exact (List.nodup_middle.1 hnd).notMem (List.mem_append_left _ hmem)
      exact Or.inr ⟨hdup, row.opcode, addRows_cons_duplicate rows hmem⟩
    · have ht' : ((table ++ [row]).map Row.opcode).Nodup := by
        rw [List.map_append]
        exact List.nodup_append_comm.1 (List.nodup_cons.2 ⟨hmem, ht⟩)
      rw [addRows_cons_new rows hmem, List.append_cons]
      exact ih ht'

/-- The opcodes of the spec's table are all different (R102, R130). -/
theorem opcodesUnique_opcodeTable : opcodesUnique (opcodeTable.map Row.opcode) = true := by decide

/-- Settles O19: from the empty table, the two cases of adding rows are the lists without and with a duplicate. -/
theorem duplicateOpcodesAreRefused : Obligations.DuplicateOpcodesAreRefused := by
  have hcases (rows : List Row) := addRows_cases rows (table := []) List.nodup_nil
  simp only [List.nil_append, ← opcodesUnique_iff_nodup] at hcases
  refine ⟨fun rows h => ?_, fun rows h => ?_, opcodesUnique_opcodeTable, rfl, fun _ _ _ _ => rfl⟩
  · obtain ⟨hu, -⟩ | ⟨-, op, e⟩ := hcases rows
    · simp [h] at hu
    · exact ⟨op, e, fun next => by rw [buildTable, e]; rfl⟩
  · obtain ⟨-, e⟩ | ⟨hu, -⟩ := hcases rows
    · exact e
    · exact absurd h hu

/-! ### The frame of memory -/

/-- A body that completes changes no byte but the one at its destination. -/
theorem BodyFrame.read_other {o : Option Addr} {s t : State} (h : BodyFrame o s t) {x : Nat}
    (hx : ∀ a, o = some a → x ≠ a.toNat) : Memory.read t.mem x = Memory.read s.mem x := by
  obtain hsame | ⟨a, v, ha, -, hwrite⟩ := h.mem
  · rw [hsame]
  · rw [hwrite, Memory.read_write_other _ v (hx a ha)]

/-- Settles O59: a completed body stores at its form's address or nowhere, and a failed one has only read. -/
theorem frameOfMemory : Obligations.FrameOfMemory := by
  intro i s t h x hx
  obtain ⟨u, hu, -, rfl⟩ | ⟨k, a, u, hu, -, rfl⟩ := exec_cases h
  · rw [State.complete_mem, hu.read_other hx]
  · rw [State.raise_mem, hu.mem]

end Sys2Proof.Machine


/-! SUPPORT. What the statement of every instruction says of its bytes, for all 166 rows at once: they decode to it, and a fetch ends
at the first of them that is unmapped (R80, R223, R230). Then the loads from a register and from an immediate (R161, R162). -/
namespace Sys2Proof.Machine

/-! ### The bytes of an instruction -/

/-- The opcode by its form's rule and the form's operand bytes spell the instruction (R92, R109). -/
theorem decode_of_form {i : Instr} {f : Form} (h : i.form = f) : decode (f.opcode :: f.operands) = .instr i [] := by
  subst h
  have hdecode := decodeOfEncode i []
  rw [List.append_nil] at hdecode
  exact hdecode

theorem Makes.layout_len {layout : Layout} {operands : List Byte} {i : Instr} (h : Makes layout operands i) :
    layout.len = 1 + operands.length := by
  cases h <;> rfl

/-- The entry of an instruction's opcode has the instruction's length (R90). -/
theorem lookupOpcode_opcode_len (i : Instr) : ∃ layout, lookupOpcode i.opcode = some layout ∧ layout.len = i.len := by
  obtain ⟨layout, hl, hm⟩ := lookupOpcode_opcode i
  exact ⟨layout, hl, hm.layout_len⟩

/-! ### Where a fetch ends -/

section
variable {s : State} {a : Addr} {b : Bank} {k : Nat} {layout : Layout}

theorem State.fetchByte_unmapped (ha : s.pc + BitVec.ofNat 16 k = a) (hn : ownerOf s.banks a = none) :
    s.fetchByte k = .failed .unmappedAddress a s := by
  subst ha; exact State.memRead_none hn

theorem State.fetchByte_mapped (ha : s.pc + BitVec.ofNat 16 k = a) (hb : ownerOf s.banks a = some b) :
    s.fetchByte k = .ok (s.byteAt b a) (s.noteRead b a) := by
  subst ha; exact State.memRead_some hb

theorem State.fetch_opcode_unmapped (hn : ownerOf s.banks s.pc = none) :
    s.fetch = .failed .unmappedAddress s.pc s := by
  rw [State.fetch, State.fetchByte_unmapped (BitVec.add_zero s.pc) hn, Access.andThen_failed]

/-- The opcode read, an instruction of two bytes or three ends at an unmapped second byte. -/
theorem State.fetch_second_unmapped (hb : ownerOf s.banks s.pc = some b)
    (hl : lookupOpcode (s.byteAt b s.pc) = some layout) (hlen : 2 ≤ layout.len) (hn : ownerOf s.banks (s.pc + 1) = none) :
    s.fetch = .failed .unmappedAddress (s.pc + 1) (s.noteRead b s.pc) := by
  have hop : s.fetchByte 0 = _ := State.fetchByte_mapped (BitVec.add_zero s.pc) hb
  have hsecond : (s.noteRead b s.pc).fetchByte 1 = .failed .unmappedAddress (s.pc + 1) (s.noteRead b s.pc) :=
    State.fetchByte_unmapped (by simp) (by simpa using hn)
  cases layout with
  | s i => simp [Layout.len] at hlen
  | i f => simp only [State.fetch, hop, Access.andThen_ok, hl, hsecond, Access.andThen_failed]
  | w f => simp only [State.fetch, hop, Access.andThen_ok, hl, hsecond, Access.andThen_failed]

/-- The opcode and the second byte read, an instruction of three bytes ends at an unmapped third byte. -/
theorem State.fetch_third_unmapped {b1 : Bank} (hb : ownerOf s.banks s.pc = some b)
    (hl : lookupOpcode (s.byteAt b s.pc) = some layout) (hlen : 3 ≤ layout.len) (hb1 : ownerOf s.banks (s.pc + 1) = some b1)
    (hn : ownerOf s.banks (s.pc + 2) = none) :
    s.fetch = .failed .unmappedAddress (s.pc + 2) ((s.noteRead b s.pc).noteRead b1 (s.pc + 1)) := by
  have hop : s.fetchByte 0 = _ := State.fetchByte_mapped (BitVec.add_zero s.pc) hb
  have hsecond : (s.noteRead b s.pc).fetchByte 1 = _ :=
    State.fetchByte_mapped (a := s.pc + 1) (by simp) (by simpa using hb1)
  have hthird : ((s.noteRead b s.pc).noteRead b1 (s.pc + 1)).fetchByte 2 = _ :=
    State.fetchByte_unmapped (a := s.pc + 2) (by simp) (by simpa using hn)
  cases layout with
  | s i => simp [Layout.len] at hlen
  | i f => simp [Layout.len] at hlen
  | w f => simp only [State.fetch, hop, Access.andThen_ok, hl, hsecond, hthird, Access.andThen_failed]

end

/-- Every instruction has the fetch failures its statement names: the step takes the failure of the fetch (R228). -/
theorem fetchFailures (i : Instr) : FetchFailures i := by
  obtain ⟨layout, hl, hlen⟩ := lookupOpcode_opcode_len i
  intro s hf
  refine ⟨fun hn => step_of_fetch_failed hf (State.fetch_opcode_unmapped hn), fun b hb hop => ?_⟩
  rw [← hop] at hl
  rw [← hlen]
  exact ⟨fun h2 hn => step_of_fetch_failed hf (State.fetch_second_unmapped hb hl h2 hn),
    fun h3 b1 hb1 hn => step_of_fetch_failed hf (State.fetch_third_unmapped hb hl h3 hb1 hn)⟩

/-! ### Loads into a register from a register or an immediate -/

theorem exec_ldRegReg {i : Instr} {dst src : OpReg} (h : i.form = .ldRegReg dst src) (s : State) :
    exec i s = .next ((s.set (opReg dst) (s.get (opReg src))).complete 1 4) := by
  rw [exec_eq_execForm, h]; rfl

theorem exec_ldRegImm {i : Instr} {dst : OpReg} {n : Byte} (h : i.form = .ldRegImm dst n) (s : State) :
    exec i s = .next ((s.set (opReg dst) n).complete 2 8) := by
  rw [exec_eq_execForm, h]; rfl

/-- Settles O35: the form's bytes decode, every fetch failure is the general one, and the body sets the destination. -/
theorem loadRegisterFromRegister : Obligations.LoadRegisterFromRegister :=
  fun i _ _ h => ⟨decode_of_form h, fetchFailures i, exec_ldRegReg h⟩

/-- Settles O36: as for a register source, with the immediate as the second byte. -/
theorem loadRegisterFromImmediate : Obligations.LoadRegisterFromImmediate :=
  fun i _ _ h => ⟨decode_of_form h, fetchFailures i, exec_ldRegImm h⟩

end Sys2Proof.Machine


/-! SUPPORT. Loads from memory and stores to memory (R170 to R180). The addressing modes differ in the address alone, so each kind
of access is settled once, for every address; a row's statement is that lemma at its own address. -/
namespace Sys2Proof.Machine

/-! ### The addresses -/

/-- The rules write the low byte of an address with its remainder (R91, R95). -/
theorem ofNat_mod_eq_loByte (w : Addr) : BitVec.ofNat 8 (w.toNat % 256) = loByte w := by
  apply BitVec.eq_of_toNat_eq
  simp [loByte]

/-- The port address never overflows: it is the base plus C exactly (R144, R175, R180). -/
theorem State.portAddr_c_eq {s : State} {ea : Addr} (h : ea.toNat = 0xFF00 + s.regs.c.toNat) :
    s.portAddr .c Config.portBase = ea := by
  apply BitVec.eq_of_toNat_eq
  simp only [State.portAddr, State.get, Config.portBase, BitVec.toNat_add, BitVec.toNat_ofNat, BitVec.reduceToNat]
  omega

/-! ### Loads from memory -/

/-- A load, settled: only an unmapped address fails it; else the byte read goes to the destination (R142, R143, R144). -/
theorem settle_loadFromAbsolute (s : State) (dst : Reg) (ea : Addr) (len cost : Nat) :
    (ownerOf s.banks ea = none →
      settle len cost (s.loadFromAbsolute dst ea) = .next { s with latch := ⟨true, .unmappedAddress, ea, s.pc⟩ }) ∧
    (∀ b, ownerOf s.banks ea = some b →
      settle len cost (s.loadFromAbsolute dst ea) =
        .next { (s.noteRead b ea).set dst (s.byteAt b ea) with pc := s.pc + BitVec.ofNat 16 len, cyc := s.cyc + cost }) := by
  unfold State.loadFromAbsolute
  refine ⟨fun hn => ?_, fun b hb => ?_⟩
  · rw [State.memRead_none hn, Access.andThen_failed, settle_failed, State.raise]
  · rw [State.memRead_some hb, Access.andThen_ok, settle_ok, State.complete]
    simp only [State.set_pc, State.set_cyc, State.noteRead_pc, State.noteRead_cyc]

/-- Settles O37: every row is a load from HL, whose address is formed before the destination is written. -/
theorem loadRegisterFromHL : Obligations.LoadRegisterFromHL := by
  intro i dst h
  refine ⟨decode_of_form h, fetchFailures i, ?_⟩
  rintro s ea rfl
  rw [exec_eq_execForm, h]
  exact settle_loadFromAbsolute s (opReg dst) (s.getExt .hl) 1 8

/-- Settles O38: a load from either pair. -/
theorem loadAFromPair : Obligations.LoadAFromPair := by
  refine ⟨⟨decode_of_form (f := .ldAccPair .bc) rfl, decode_of_form (f := .ldAccPair .de) rfl⟩,
    fetchFailures _, fetchFailures _, ?_⟩
  rintro s i ea (⟨rfl, rfl⟩ | ⟨rfl, rfl⟩)
  · exact settle_loadFromAbsolute s .a (s.getExt .bc) 1 8
  · exact settle_loadFromAbsolute s .a (s.getExt .de) 1 8

/-- Settles O39: a load from the address the two operand bytes spell. -/
theorem loadAFromAbsolute : Obligations.LoadAFromAbsolute := by
  intro nn
  rw [ofNat_mod_eq_loByte]
  exact ⟨decode_of_form (f := .ldAccAbs nn) rfl, fetchFailures _, fun s => settle_loadFromAbsolute s .a nn 3 16⟩

/-- Settles O40: a load from the port's address. -/
theorem loadAFromPort : Obligations.LoadAFromPort := by
  refine ⟨decode_of_form (f := .ldAccPort) rfl, fetchFailures _, fun s ea h => ?_⟩
  rw [← State.portAddr_c_eq h]
  exact settle_loadFromAbsolute s .a (s.portAddr .c Config.portBase) 1 8

/-! ### Stores to memory -/

/-- A store, settled: an unmapped address fails it, then a read-only bank; else the source is stored (R146, R147, R148). -/
theorem settle_putToAbsolute (s : State) (src : Reg) (ea : Addr) (len cost : Nat) :
    (ownerOf s.banks ea = none →
      settle len cost (s.putToAbsolute src ea) = .next { s with latch := ⟨true, .unmappedAddress, ea, s.pc⟩ }) ∧
    (∀ b, ownerOf s.banks ea = some b → b.perm = .readOnly →
      settle len cost (s.putToAbsolute src ea) = .next { s with latch := ⟨true, .permissionDenied, ea, s.pc⟩ }) ∧
    (∀ b, ownerOf s.banks ea = some b → b.perm = .readWrite →
      settle len cost (s.putToAbsolute src ea) =
        .next { s.storeAt b (s.get src) ea with pc := s.pc + BitVec.ofNat 16 len, cyc := s.cyc + cost }) := by
  unfold State.putToAbsolute
  refine ⟨fun hn => ?_, fun b hb hp => ?_, fun b hb hp => ?_⟩
  · rw [State.memWrite_none hn, settle_failed, State.raise]
  · rw [State.memWrite_readOnly hb hp, settle_failed, State.raise]
  · rw [State.memWrite_readWrite hb hp, settle_ok, State.complete, State.storeAt_pc, State.storeAt_cyc]

/-- Settles O41: every row is a store of its register at HL. -/
theorem storeRegisterToHL : Obligations.StoreRegisterToHL := by
  intro i src h
  refine ⟨decode_of_form h, fetchFailures i, ?_⟩
  rintro s ea rfl
  rw [exec_eq_execForm, h]
  exact settle_putToAbsolute s (opReg src) (s.getExt .hl) 1 8

/-- Settles O42: a store of A at either pair. -/
theorem storeAToPair : Obligations.StoreAToPair := by
  refine ⟨⟨decode_of_form (f := .ldPairAcc .bc) rfl, decode_of_form (f := .ldPairAcc .de) rfl⟩,
    fetchFailures _, fetchFailures _, ?_⟩
  rintro s i ea (⟨rfl, rfl⟩ | ⟨rfl, rfl⟩)
  · exact settle_putToAbsolute s .a (s.getExt .bc) 1 8
  · exact settle_putToAbsolute s .a (s.getExt .de) 1 8

/-- Settles O43: a store of A at the address the two operand bytes spell. -/
theorem storeAToAbsolute : Obligations.StoreAToAbsolute := by
  intro nn
  rw [ofNat_mod_eq_loByte]
  exact ⟨decode_of_form (f := .ldAbsAcc nn) rfl, fetchFailures _, fun s => settle_putToAbsolute s .a nn 3 16⟩

/-- Settles O44: a store of A at the port's address. -/
theorem storeAToPort : Obligations.StoreAToPort := by
  refine ⟨decode_of_form (f := .ldPortAcc) rfl, fetchFailures _, fun s ea h => ?_⟩
  rw [← State.portAddr_c_eq h]
  exact settle_putToAbsolute s .a (s.portAddr .c Config.portBase) 1 8

end Sys2Proof.Machine


/-! SUPPORT. The accumulator operations (R190 to R202). The eight differ in what they write to A and F alone: what a rule says of the
rest is proved once, for every operation and source, and each operation adds its result and flags. -/
namespace Sys2Proof.Machine

/-! ### An accumulator operation of any source -/

/-- The source forms differ in how the right operand is read alone (R191). -/
theorem bodyOf_alu (s : State) (op : AluOp) (src : AluSrc) :
    bodyOf s (.alu op src) = (s.operand src).andThen fun v t => .ok () (accOp op t v) := by
  cases src <;> rfl

/-- Reading the right operand changes nothing but what devices have seen. -/
theorem readsOnly_of_operand {s t : State} {src : AluSrc} {v : Byte} (h : s.operand src = .ok v t) : ReadsOnly s t := by
  cases src with
  | reg r => cases h; exact .refl s
  | imm n => cases h; exact .refl s
  | indHL =>
    rw [State.operand] at h
    obtain ⟨-, e⟩ | ⟨b, hb, e⟩ := s.memRead_cases (s.getExt .hl) <;> rw [e] at h <;> cases h
    exact readsOnly_noteRead (mem_of_ownerOf hb)

/-- The bytes the rules give an operation are its form's opcode and operands. -/
theorem accBytes_eq_form (op : AluOp) (src : AluSrc) :
    accBytes op src = (Form.alu op src).opcode :: (Form.alu op src).operands := by
  cases src with
  | reg r => rfl
  | imm n => rfl
  | indHL => exact congrArg (fun k => [BitVec.ofNat 8 k]) (Nat.add_right_comm 0x80 (8 * op.code) 6)

theorem accLen_eq_form (op : AluOp) (src : AluSrc) : accLen src = 1 + (Form.alu op src).operands.length := by
  cases src <;> rfl

theorem accCost_eq_form (op : AluOp) (src : AluSrc) : accCost src = (Form.alu op src).cost := by
  cases src <;> rfl

/-- All a rule says of an accumulator operation, from what the operation does to the state with its right operand. -/
theorem accEffect_of_accOp {op : AluOp} {f : State → Byte → State} (hf : ∀ s v, accOp op s v = f s v) : AccEffect op f := by
  intro i src hi
  have hexec (s : State) :
      exec i s = settle (accLen src) (accCost src) ((s.operand src).andThen fun v t => .ok () (accOp op t v)) := by
    rw [exec_eq_execForm, hi, bodyOf_alu, accLen_eq_form op, accCost_eq_form op]
  refine ⟨?_, fetchFailures i, ?_, fun s t v hv => ?_⟩
  · rw [accBytes_eq_form]
    exact decode_of_form hi
  · rintro s rfl hn
    have hread : s.operand .indHL = .failed .unmappedAddress (wordOf s.regs.h s.regs.l) s := State.memRead_none hn
    rw [hexec, hread, Access.andThen_failed, settle_failed, State.raise]
  · have ht := readsOnly_of_operand hv
    have hframe : BodyFrame none s (accOp op t v) := (ht.bodyFrame none).accOp op v
    rw [hexec, hv, Access.andThen_ok, settle_ok, State.complete, hframe.pc, hframe.cyc, hf]

/-! ### F as the rules write it -/

theorem AluResult.flags_eq_flagByte (x : AluResult) : x.flags = flagByte x.z x.n x.h x.c := by
  obtain ⟨r, z, n, h, c⟩ := x
  cases z <;> cases n <;> cases h <;> cases c <;> rfl

theorem State.putAcc_eq (s : State) (x : AluResult) : s.putAcc x = writeAccFlags s x.r (flagByte x.z x.n x.h x.c) := by
  rw [← x.flags_eq_flagByte]; rfl

/-! ### The functions, as their rules write them -/

theorem byte_eq_zero_iff (b : Byte) : b = 0 ↔ b.toNat = 0 := (BitVec.toNat_inj (y := 0)).symm

/-- Addition (R193). -/
theorem add8_eq (a v : Byte) (c : Bool) :
    add8 a v c =
      ⟨BitVec.ofNat 8 ((a.toNat + v.toNat + c.toNat) % 256), decide ((a.toNat + v.toNat + c.toNat) % 256 = 0), false,
        decide (a.toNat % 16 + v.toNat % 16 + c.toNat > 15), decide (a.toNat + v.toNat + c.toNat > 255)⟩ := by
  have hr (n : Nat) : BitVec.ofNat 8 n = BitVec.ofNat 8 (n % 256) := by
    apply BitVec.eq_of_toNat_eq
    simp
  rw [add8, hr]

/-- The true difference modulo 256 is what an integer remainder gives (R194). -/
theorem toNat_sub_sub (a v : Byte) (c : Bool) :
    ((a - v - BitVec.ofNat 8 c.toNat).toNat : Int) = ((a.toNat : Int) - v.toNat - c.toNat) % 256 := by
  have := a.isLt
  have := v.isLt
  have := c.toNat_le
  simp only [BitVec.toNat_sub, BitVec.toNat_ofNat]
  omega

/-- Subtraction (R194). -/
theorem sub8_eq (a v : Byte) (c : Bool) :
    sub8 a v c =
      ⟨BitVec.ofNat 8 (((a.toNat : Int) - v.toNat - c.toNat) % 256).toNat,
        decide (((a.toNat : Int) - v.toNat - c.toNat) % 256 = 0), true,
        decide (a.toNat % 16 < v.toNat % 16 + c.toNat), decide (a.toNat < v.toNat + c.toNat)⟩ := by
  rw [← toNat_sub_sub, Int.toNat_natCast, BitVec.ofNat_toNat, BitVec.setWidth_eq]
  simp only [sub8, byte_eq_zero_iff, Int.natCast_eq_zero]

/-- A comparison finds a zero difference where its operands are equal (R202). -/
theorem sub8_false_z (a v : Byte) : (sub8 a v false).z = decide (a = v) := by
  simp only [sub8, Bool.toNat_false, BitVec.ofNat_eq_ofNat, BitVec.sub_zero]
  exact decide_eq_decide.2 sub_eq_zero

/-- Increment (R203). -/
theorem inc8_eq (b : Byte) (c : Bool) :
    inc8 b c =
      ⟨BitVec.ofNat 8 ((b.toNat + 1) % 256), decide ((b.toNat + 1) % 256 = 0), false, decide (b.toNat % 16 = 15), c⟩ := by
  have hr : (b + 1).toNat = (b.toNat + 1) % 256 := BitVec.toNat_add ..
  rw [← hr, BitVec.ofNat_toNat, BitVec.setWidth_eq]
  simp only [inc8, byte_eq_zero_iff]

/-- Decrement (R205). -/
theorem dec8_eq (b : Byte) (c : Bool) :
    dec8 b c =
      ⟨BitVec.ofNat 8 ((b.toNat + 255) % 256), decide ((b.toNat + 255) % 256 = 0), true, decide (b.toNat % 16 = 0), c⟩ := by
  have hr : (b - 1).toNat = (b.toNat + 255) % 256 := by
    rw [BitVec.toNat_sub, Nat.add_comm]; rfl
  rw [← hr, BitVec.ofNat_toNat, BitVec.setWidth_eq]
  simp only [dec8, byte_eq_zero_iff]

/-! ### The eight operations -/

/-- Settles O45: the addition function with carry 0. -/
theorem addAccumulator : Obligations.AddAccumulator :=
  accEffect_of_accOp fun s v => (s.putAcc_eq _).trans (by rw [add8_eq]; rfl)

/-- Settles O46: the addition function with the carry flag. -/
theorem addWithCarryAccumulator : Obligations.AddWithCarryAccumulator :=
  accEffect_of_accOp fun s v => (s.putAcc_eq _).trans (by rw [add8_eq, s.toNat_carry]; rfl)

/-- Settles O47: the subtraction function with borrow 0. -/
theorem subtractAccumulator : Obligations.SubtractAccumulator :=
  accEffect_of_accOp fun s v => (s.putAcc_eq _).trans (by rw [sub8_eq, Bool.toNat_false, Nat.cast_zero, sub_zero]; rfl)

/-- Settles O48: the subtraction function with the carry flag as borrow. -/
theorem subtractWithCarryAccumulator : Obligations.SubtractWithCarryAccumulator :=
  accEffect_of_accOp fun s v => (s.putAcc_eq _).trans (by rw [sub8_eq, s.toNat_carry]; rfl)

/-- Settles O49: the flags of a bitwise and. -/
theorem andAccumulator : Obligations.AndAccumulator :=
  accEffect_of_accOp fun s v => s.putAcc_eq (and8 s.regs.a v)

/-- Settles O50: the flags of a bitwise exclusive or. -/
theorem xorAccumulator : Obligations.XorAccumulator :=
  accEffect_of_accOp fun s v => s.putAcc_eq (xor8 s.regs.a v)

/-- Settles O51: the flags of a bitwise or. -/
theorem orAccumulator : Obligations.OrAccumulator :=
  accEffect_of_accOp fun s v => s.putAcc_eq (or8 s.regs.a v)

/-- Settles O52: the flags of the subtraction function with borrow 0, whose zero flag compares the operands. -/
theorem compareAccumulator : Obligations.CompareAccumulator := by
  refine accEffect_of_accOp fun s v => ?_
  have hflags : (sub8 s.regs.a v false).flags = flagByte _ _ _ _ := AluResult.flags_eq_flagByte _
  rw [sub8_false_z] at hflags
  exact congrArg (writeFlags s) hflags

end Sys2Proof.Machine


/-! SUPPORT. Increment and decrement (R203 to R206). The two differ in the function alone: each place, a register or the byte at HL,
is settled once, for every function of a byte. -/
namespace Sys2Proof.Machine

/-- The carry flag as a truth value, read off its bit (R30). -/
theorem State.carry_eq_decide (s : State) : s.carry = decide (carryBit s = 1) := by
  rw [← s.toNat_carry]
  cases s.carry <;> rfl

/-! ### A register -/

theorem exec_incReg {i : Instr} {r : OpReg} (h : i.form = .inc (.reg r)) (s : State) {x : AluResult}
    (hx : inc8 (s.get (opReg r)) s.carry = x) :
    exec i s = .next (((s.set (opReg r) x.r).set .f x.flags).complete 1 4) := by
  subst hx
  rw [exec_eq_execForm, h]; rfl

theorem exec_decReg {i : Instr} {r : OpReg} (h : i.form = .dec (.reg r)) (s : State) {x : AluResult}
    (hx : dec8 (s.get (opReg r)) s.carry = x) :
    exec i s = .next (((s.set (opReg r) x.r).set .f x.flags).complete 1 4) := by
  subst hx
  rw [exec_eq_execForm, h]; rfl

/-- Settles O53: the increment function, with the carry flag kept. -/
theorem incrementRegister : Obligations.IncrementRegister := by
  intro i r h
  refine ⟨decode_of_form h, fetchFailures i, ?_⟩
  rintro s v rfl
  rw [exec_incReg h s (inc8_eq ..), AluResult.flags_eq_flagByte, s.carry_eq_decide]; rfl

/-- Settles O54: the decrement function, with the carry flag kept. -/
theorem decrementRegister : Obligations.DecrementRegister := by
  intro i r h
  refine ⟨decode_of_form h, fetchFailures i, ?_⟩
  rintro s v rfl
  rw [exec_decReg h s (dec8_eq ..), AluResult.flags_eq_flagByte, s.carry_eq_decide]; rfl

/-! ### The byte at HL -/

/-- A function of the byte at HL: one read, one write of the result at the same address, then F (R204, R206). -/
def State.updateAtHL (s : State) (x : Byte → AluResult) : Access Unit :=
  (s.memRead (s.getExt .hl)).andThen fun v t =>
    (t.memWrite (s.getExt .hl) (x v).r).andThen fun _ u => .ok () (u.set .f (x v).flags)

theorem exec_incIndHL (s : State) : exec .incIndHL s = settle 1 12 (s.updateAtHL fun v => inc8 v s.carry) :=
  exec_eq_execForm ..

theorem exec_decIndHL (s : State) : exec .decIndHL s = settle 1 12 (s.updateAtHL fun v => dec8 v s.carry) :=
  exec_eq_execForm ..

section
variable {s : State} {x : Byte → AluResult} {b : Bank}

theorem settle_updateAtHL_unmapped (hn : ownerOf s.banks (s.getExt .hl) = none) (len cost : Nat) :
    settle len cost (s.updateAtHL x) = .next { s with latch := ⟨true, .unmappedAddress, s.getExt .hl, s.pc⟩ } := by
  rw [State.updateAtHL, State.memRead_none hn]; rfl

/-- In a read-only bank the read has been made and the write fails. -/
theorem settle_updateAtHL_readOnly (hb : ownerOf s.banks (s.getExt .hl) = some b) (hp : b.perm = .readOnly) (len cost : Nat) :
    settle len cost (s.updateAtHL x) =
      .next { s.noteRead b (s.getExt .hl) with latch := ⟨true, .permissionDenied, s.getExt .hl, s.pc⟩ } := by
  have hb' : ownerOf (s.noteRead b (s.getExt .hl)).banks (s.getExt .hl) = some b := by rwa [State.noteRead_banks]
  rw [State.updateAtHL, State.memRead_some hb, Access.andThen_ok, State.memWrite_readOnly hb' hp, Access.andThen_failed,
    settle_failed]
  simp only [State.raise, State.noteRead_pc]

theorem settle_updateAtHL_readWrite (hb : ownerOf s.banks (s.getExt .hl) = some b) (hp : b.perm = .readWrite)
    {y : AluResult} (hy : x (s.byteAt b (s.getExt .hl)) = y) (len cost : Nat) :
    settle len cost (s.updateAtHL x) =
      .next { ((s.noteRead b (s.getExt .hl)).storeAt b y.r (s.getExt .hl)).set .f y.flags with
        pc := s.pc + BitVec.ofNat 16 len, cyc := s.cyc + cost } := by
  subst hy
  have hb' : ownerOf (s.noteRead b (s.getExt .hl)).banks (s.getExt .hl) = some b := by rwa [State.noteRead_banks]
  rw [State.updateAtHL, State.memRead_some hb, Access.andThen_ok, State.memWrite_readWrite hb' hp, Access.andThen_ok,
    settle_ok, State.complete]
  simp only [State.set_pc, State.set_cyc, State.storeAt_pc, State.storeAt_cyc, State.noteRead_pc, State.noteRead_cyc]

end

/-- Settles O55: the increment function of the byte at HL. -/
theorem incrementAtHL : Obligations.IncrementAtHL := by
  refine ⟨decode_of_form (f := .inc .indHL) rfl, fetchFailures _, ?_⟩
  rintro s ea rfl
  rw [exec_incIndHL]
  refine ⟨fun hn => settle_updateAtHL_unmapped hn 1 12, fun b hb hp => settle_updateAtHL_readOnly hb hp 1 12, ?_⟩
  rintro b v hb hp rfl
  rw [settle_updateAtHL_readWrite hb hp (inc8_eq ..), AluResult.flags_eq_flagByte, s.carry_eq_decide]; rfl

/-- Settles O56: the decrement function of the byte at HL. -/
theorem decrementAtHL : Obligations.DecrementAtHL := by
  refine ⟨decode_of_form (f := .dec .indHL) rfl, fetchFailures _, ?_⟩
  rintro s ea rfl
  rw [exec_decIndHL]
  refine ⟨fun hn => settle_updateAtHL_unmapped hn 1 12, fun b hb hp => settle_updateAtHL_readOnly hb hp 1 12, ?_⟩
  rintro b v hb hp rfl
  rw [settle_updateAtHL_readWrite hb hp (dec8_eq ..), AluResult.flags_eq_flagByte, s.carry_eq_decide]; rfl

end Sys2Proof.Machine


/-! SUPPORT. What a failed step leaves (R229): it has only read, and then taken its failure. -/
namespace Sys2Proof.Machine

/-- A step that sets the latch has only read before it took its failure: a completed one leaves the latch clear. -/
theorem step_failed {s t : State} (h : step s = .next t) (ht : t.latch.faulted = true) :
    ∃ k a u, ReadsOnly s u ∧ RunTimeFailure s.banks k a ∧ t = u.raise k a := by
  obtain ⟨hf, ⟨i, u, w, -, hu, hw, -, rfl⟩ | hfailed⟩ := step_cases h
  · rw [State.complete_latch, hw.latch, hu.latch, hf] at ht
    cases ht
  · exact hfailed

/-- A failure taken after reads changes the latch and what devices have seen, and nothing else. -/
theorem ReadsOnly.raise_eq {s u : State} (h : ReadsOnly s u) (k : FailureKind) (a : Addr) :
    u.raise k a = { s with latch := (u.raise k a).latch, events := (u.raise k a).events } := by
  rw [h.eq]
  rfl

/-- Settles O9: the reads before the failure extend the device record, and the failure is taken at the pc they leave alone. -/
theorem failedStepIsPrecise : Obligations.FailedStepIsPrecise := by
  intro s t _ h ht
  obtain ⟨k, a, u, hu, -, rfl⟩ := step_failed h ht
  have hpc : (u.raise k a).latch.pc = s.pc := by rw [State.raise_latch, hu.pc]
  exact ⟨hu.raise_eq k a, hu.suffix, hpc⟩

end Sys2Proof.Machine

/-! SUPPORT. The configuration, banks and RESET_PC, through every host action (R38, R254); and the host's reset, which takes the
next opcode from RESET_PC (R250). -/
namespace Sys2Proof.Machine

/-! ### The configuration -/

/-- Two states have the same configuration (R38): the banks and RESET_PC. -/
structure SameConfig (s t : State) : Prop where
  banks   : t.banks = s.banks
  resetPc : t.resetPc = s.resetPc

theorem SameConfig.refl (s : State) : SameConfig s s := ⟨rfl, rfl⟩

theorem SameConfig.trans {s t u : State} (h : SameConfig s t) (k : SameConfig t u) : SameConfig s u :=
  ⟨k.banks.trans h.banks, k.resetPc.trans h.resetPc⟩

theorem ReadsOnly.sameConfig {s t : State} (h : ReadsOnly s t) : SameConfig s t := ⟨h.banks, h.resetPc⟩

theorem BodyFrame.sameConfig {o : Option Addr} {s t : State} (h : BodyFrame o s t) : SameConfig s t := ⟨h.banks, h.resetPc⟩

theorem sameConfig_of_step {s t : State} (h : step s = .next t) : SameConfig s t := by
  obtain ⟨-, ⟨i, u, w, -, hu, hw, -, rfl⟩ | ⟨k, a, u, hu, -, rfl⟩⟩ := step_cases h
  · have hrun : SameConfig s w := hu.sameConfig.trans hw.sameConfig
    exact ⟨hrun.banks, hrun.resetPc⟩
  · exact ⟨hu.banks, hu.resetPc⟩

/-! ### The host's direct accesses to a bank -/

section
variable (s : State) (b : Bank) (a : Addr)

theorem State.sameConfig_noteRead : SameConfig s (s.noteRead b a) := ⟨s.noteRead_banks b a, s.noteRead_resetPc b a⟩

theorem State.sameConfig_storeAt (v : Byte) : SameConfig s (s.storeAt b v a) :=
  ⟨s.storeAt_banks b v a, s.storeAt_resetPc b v a⟩

theorem State.sameConfig_bankRead : SameConfig s (afterAccess (s.bankRead b a)) := by
  cases hin : b.owns a.toNat with
  | false => rw [s.bankRead_outside hin]; exact .refl s
  | true => rw [s.bankRead_inside hin]; exact s.sameConfig_noteRead b a

theorem State.sameConfig_bankWrite (v : Byte) : SameConfig s (afterAccess (s.bankWrite b v a)) := by
  cases hin : b.owns a.toNat with
  | false => rw [s.bankWrite_outside v hin]; exact .refl s
  | true =>
    cases hp : b.perm with
    | readOnly => rw [s.bankWrite_readOnly v hin hp]; exact .refl s
    | readWrite => rw [s.bankWrite_readWrite v hin hp]; exact s.sameConfig_storeAt b a v

/-- What is made of an access's value does not change the state it leaves. -/
theorem afterAccess_andThen_ok {α β : Type} (x : Access α) (f : α → β) :
    afterAccess (x.andThen fun v t => .ok (f v) t) = afterAccess x := by
  cases x <;> rfl

theorem State.sameConfig_readSpan (len : Nat) : SameConfig s (afterAccess (s.readSpan b len a)) := by
  induction len generalizing s a with
  | zero => exact .refl s
  | succ len ih =>
    rw [State.readSpan, afterAccess_andThen_ok]
    exact (s.sameConfig_noteRead b a).trans (ih ..)

theorem State.sameConfig_storeSpan (vs : List Byte) : SameConfig s (s.storeSpan b vs a) := by
  induction vs generalizing s a with
  | nil => exact .refl s
  | cons v vs ih => exact (s.sameConfig_storeAt b a v).trans (ih ..)

end

section
variable {s t : State} {b : Bank} {a : Addr}

/-- A range access that leaves a state was not refused. -/
theorem afterRange_next {α : Type} {x : Host.Outcome (Access α) Fault Refusal} (h : afterRange x = .next t) :
    ∃ y, x = .next y ∧ t = afterAccess y := by
  cases x with
  | next y => cases h; exact ⟨y, rfl, rfl⟩
  | fault f => cases h
  | refused r => cases h

theorem sameConfig_of_bankReadRange {len : Nat} (h : afterRange (s.bankReadRange b a len) = .next t) : SameConfig s t := by
  obtain ⟨y, hy, rfl⟩ := afterRange_next h
  cases len with
  | zero => cases hy
  | succ len =>
    cases hin : b.ownsSpan a.toNat (len + 1) with
    | false => rw [s.bankReadRange_outside (by omega) hin] at hy; cases hy; exact .refl s
    | true => rw [s.bankReadRange_inside (by omega) hin] at hy; cases hy; exact s.sameConfig_readSpan b a (len + 1)

theorem sameConfig_of_bankWriteRange {vs : List Byte} (h : afterRange (s.bankWriteRange b vs a) = .next t) :
    SameConfig s t := by
  obtain ⟨y, hy, rfl⟩ := afterRange_next h
  cases vs with
  | nil => cases hy
  | cons v vs =>
    have hne : v :: vs ≠ [] := List.cons_ne_nil v vs
    cases hin : b.ownsSpan a.toNat (v :: vs).length with
    | false => rw [s.bankWriteRange_outside hne hin] at hy; cases hy; exact .refl s
    | true =>
      cases hp : b.perm with
      | readOnly => rw [s.bankWriteRange_readOnly hne hin hp] at hy; cases hy; exact .refl s
      | readWrite => rw [s.bankWriteRange_readWrite hne hin hp] at hy; cases hy; exact s.sameConfig_storeSpan b a (v :: vs)

/-! ### The host's actions -/

theorem sameConfig_of_hostAct {x : HostAction} (h : hostAct x s = .next t) : SameConfig s t := by
  cases x with
  | step => exact sameConfig_of_step h
  | setReg r n => cases h; exact ⟨s.set_banks r _, s.set_resetPc r _⟩
  | setExt p n => cases h; exact ⟨s.setExt_banks _ p, s.setExt_resetPc _ p⟩
  | readBank k a =>
    simp only [hostAct] at h
    split at h <;> cases h
    exact s.sameConfig_bankRead _ a
  | writeBank k v a =>
    simp only [hostAct] at h
    split at h <;> cases h
    exact s.sameConfig_bankWrite _ a v
  | readRange k a len =>
    simp only [hostAct] at h
    split at h
    · exact sameConfig_of_bankReadRange h
    · cases h
  | writeRange k vs a =>
    simp only [hostAct] at h
    split at h
    · exact sameConfig_of_bankWriteRange h
    · cases h
  | reset => cases h; exact ⟨s.hostReset_banks, s.hostReset_resetPc⟩

end

/-- Settles O7: a step completes or fails within its frame, and the other actions write registers, bank bytes and what devices have
seen. -/
theorem configurationNeverChanges : Obligations.ConfigurationNeverChanges := by
  intro x s t h
  have hconfig : SameConfig s t := sameConfig_of_hostAct h
  exact ⟨hconfig.banks, hconfig.resetPc⟩

/-! ### Reset -/

/-- The opcode is fetched at the program counter (R126). -/
theorem State.fetchByte_zero (s : State) : s.fetchByte 0 = s.memRead s.pc := congrArg s.memRead (BitVec.add_zero s.pc)

/-- Settles O1: the fields reset writes and those it keeps; the program counter it leaves is where the opcode is fetched. -/
theorem hostResetEffect : Obligations.HostResetEffect := by
  intro s
  have hfetch : s.hostReset.fetchByte 0 = s.hostReset.memRead s.resetPc := by
    rw [State.fetchByte_zero, State.hostReset_pc]
  exact ⟨s.hostReset_pc, s.hostReset_latch, s.hostReset_cyc, s.hostReset_mem, s.hostReset_banks, s.hostReset_resetPc, hfetch⟩

end Sys2Proof.Machine

/-! SUPPORT. The state after reset (R39, R250); and the ends of a step: a core that is not faulted always has one, its failures are
the three run-time kinds, and the cycle counter decides nothing (R132, R227, R258). -/
namespace Sys2Proof.Machine

/-! ### The state after reset -/

/-- Settles O2: the reset writes pc, the latch and the counter alone. -/
theorem hostResetKeepsRegisters : Obligations.HostResetKeepsRegisters :=
  fun s => ⟨s.hostReset_regs, s.hostReset_sp, s.hostReset_events⟩

/-- Settles O3: the fields of REF's machine, written out. -/
theorem stateAfterResetOnRef : Obligations.StateAfterResetOnRef :=
  ⟨rfl, rfl, rfl, rfl, rfl⟩

/-- The banks of REF are as registration leaves them (R59, R61, R71). -/
theorem banksWellFormed_refBanks : banksWellFormed Config.refBanks = true := by decide

/-- Settles O4: the banks of REF, no byte listed, the latch clear. -/
theorem resetMeetsInvariant : Obligations.ResetMeetsInvariant :=
  ⟨banksWellFormed_refBanks, reset_mem_wf, rfl, (latchTrue_of_not_faulted rfl).2 rfl⟩

/-! ### The ends of a step -/

/-- Every instruction answers a next state, completed or failed (R127). -/
theorem exec_answers (i : Instr) (s : State) : ∃ t, exec i s = .next t := by
  rw [exec_eq_execForm]
  cases bodyOf s i.form with
  | ok _ t => exact ⟨_, rfl⟩
  | failed k a t => exact ⟨_, rfl⟩

theorem step_answers {s : State} (hf : s.latch.faulted = false) : ∃ t, step s = .next t := by
  obtain ⟨hset, -⟩ | ⟨-, i, t, -, e⟩ | ⟨-, k, a, t, -, e⟩ := step_def s
  · simp [hf] at hset
  · exact e ▸ exec_answers i t
  · exact ⟨_, e⟩

/-- Settles O8: a fetch that succeeds runs an instruction, which answers; one that fails is taken; a set latch stops the core. -/
theorem stepsExactlyWhileNotFaulted : Obligations.StepsExactlyWhileNotFaulted := by
  refine fun s => ⟨step_answers, fun hset => ?_⟩
  rw [step, if_pos hset]

theorem RunTimeFailure.code {banks : List Bank} {k : FailureKind} {a : Addr} (h : RunTimeFailure banks k a) :
    k.code = 2 ∨ k.code = 3 ∨ k.code = 6 := by
  cases h with
  | unmapped _ => exact Or.inr (Or.inl rfl)
  | denied _ _ => exact Or.inl rfl
  | undefined _ => exact Or.inr (Or.inr rfl)

/-- Settles O10: the failure a step takes is one of the three run-time ones. -/
theorem onlyRunTimeKindsReachTheLatch : Obligations.OnlyRunTimeKindsReachTheLatch := by
  intro s t _ h ht
  obtain ⟨k, a, u, -, hwhy, rfl⟩ := step_failed h ht
  exact hwhy.code

/-- No step writes SP (R27). -/
theorem step_sp {s t : State} (h : step s = .next t) : t.sp = s.sp := by
  obtain ⟨-, ⟨i, u, w, -, hu, hw, -, rfl⟩ | ⟨k, a, u, hu, -, rfl⟩⟩ := step_cases h
  · rw [State.complete_sp, hw.sp, hu.sp]
  · rw [State.raise_sp, hu.sp]

/-- Settles O15: the change of the counter alone, with SP as it stands, which the step keeps. -/
theorem cycleCounterNeverMatters : Obligations.CycleCounterNeverMatters := by
  intro s n
  have hstep : step { s with cyc := s.cyc + n } = mapNext (·.shifted s.sp n) (step s) := step_shifted s s.sp n
  rw [hstep]
  cases h : step s with
  | next t => simp [mapNext, State.shifted, ← step_sp h]
  | fault r => rfl
  | refused r => rfl

end Sys2Proof.Machine

/-! SUPPORT. What a storage bank and a device bank do with their accesses (R57, R66, R77). -/
namespace Sys2Proof.Machine

/-! ### A storage bank -/

/-- Settles O26: one case for each permission inside the bank, and the bounds check outside. -/
theorem storageLaw : Obligations.StorageLaw := by
  intro s b v a hm hk
  refine ⟨fun hin hp => ⟨_, s.bankWrite_readWrite v hin hp, ?_, fun x hx => s.read_storeAt_other b v hx⟩,
    s.bankWrite_readOnly v, fun hout => ⟨s.bankRead_outside hout, s.bankWrite_outside v hout⟩⟩
  rw [State.bankRead_inside _ hin, State.byteAt_storage _ hk, State.noteRead_storage _ hk, s.read_storeAt_same hk hm]

theorem storageOwned_iff {banks : List Bank} {a : Addr} :
    storageOwned banks a = true ↔ ∃ b, ownerOf banks a = some b ∧ b.kind = .storage := by
  unfold storageOwned
  cases ownerOf banks a <;> simp

/-- Settles O34: a write that succeeded stored the byte in its storage bank, where the fetch looks it up. -/
theorem storesAreFetched : Obligations.StoresAreFetched := by
  intro s t u a v k hm hown hwrite hmem hbanks hpc
  obtain ⟨b, hb, hk⟩ := storageOwned_iff.1 hown
  have ht : t = s.storeAt b v a := by
    obtain ⟨-, e⟩ | ⟨_, -, -, e⟩ | ⟨c, hc, -, e⟩ := s.memWrite_cases a v <;> rw [e] at hwrite <;> cases hwrite
    obtain rfl : b = c := Option.some.inj (hb.symm.trans hc)
    rfl
  subst ht
  rw [State.storeAt_banks] at hbanks
  rw [State.fetchByte_mapped hpc (hbanks ▸ hb), u.byteAt_storage hk, u.noteRead_storage hk, hmem, s.read_storeAt_same hk hm]

/-! ### A device bank -/

section
variable (s : State) {b : Bank} (v : Byte) (a : Addr)

theorem State.byteAt_device (h : b.kind = .device) : s.byteAt b a = Config.deviceAnswer s.events a := by
  simp [State.byteAt, h]

theorem State.noteRead_device (h : b.kind = .device) : s.noteRead b a = { s with events := .read a :: s.events } := by
  simp [State.noteRead, h]

theorem State.storeAt_device (h : b.kind = .device) :
    s.storeAt b v a = { s with events := .write a v :: s.events } := by
  simp [State.storeAt, h]

end

/-- In simp's spelling of `1`: the address `k` after the next one is the address `k + 1` after `a`. -/
theorem addr_succ_add (a : Addr) (k : Nat) : a + 1#16 + BitVec.ofNat 16 k = a + BitVec.ofNat 16 (k + 1) := by
  rw [Nat.add_comm k, BitVec.ofNat_add, BitVec.add_assoc]

theorem readEvents_succ (a : Addr) (len : Nat) : readEvents a (len + 1) = readEvents (a + 1) len ++ [.read a] := by
  simp [readEvents, List.range_succ_eq_map, Function.comp_def, addr_succ_add]

theorem writeEvents_cons (a : Addr) (v : Byte) (vs : List Byte) :
    writeEvents a (v :: vs) = writeEvents (a + 1) vs ++ [.write a v] := by
  simp [writeEvents, List.mapIdx_cons, addr_succ_add]

/-- A device's span: each byte read once, ascending, answered after the reads before it (log entry 14). -/
theorem State.readSpan_device (s : State) {b : Bank} (hk : b.kind = .device) (len : Nat) (a : Addr) :
    s.readSpan b len a =
      .ok ((List.range len).map fun k => Config.deviceAnswer (readEvents a k ++ s.events) (a + BitVec.ofNat 16 k))
        { s with events := readEvents a len ++ s.events } := by
  induction len generalizing s a with
  | zero => rfl
  | succ len ih =>
    rw [State.readSpan, ih, Access.andThen_ok, s.byteAt_device a hk, s.noteRead_device a hk, List.range_succ_eq_map]
    simp [Function.comp_def, readEvents_succ, addr_succ_add, show readEvents a 0 = [] from rfl]

/-- A device's span: each byte written once, ascending (log entry 14). -/
theorem State.storeSpan_device (s : State) {b : Bank} (hk : b.kind = .device) (vs : List Byte) (a : Addr) :
    s.storeSpan b vs a = { s with events := writeEvents a vs ++ s.events } := by
  induction vs generalizing s a with
  | nil => rfl
  | cons v vs ih => simp [State.storeSpan, ih, s.storeAt_device v a hk, writeEvents_cons]

/-- Settles O29: the checks of every bank, and what a device bank's accesses and spans are. -/
theorem deviceAccessesAreSeenOnce : Obligations.DeviceAccessesAreSeenOnce := by
  intro s b v a hk
  refine ⟨fun hout => ⟨s.bankRead_outside hout, s.bankWrite_outside v hout⟩,
    fun hin => ⟨?_, s.bankWrite_readOnly v hin, fun hp => ?_⟩, fun len hlen hlo hhi => ?_, fun vs hvs hlo hhi hp => ?_⟩
  · rw [s.bankRead_inside hin, s.byteAt_device a hk, s.noteRead_device a hk]
  · rw [s.bankWrite_readWrite v hin hp, s.storeAt_device v a hk]
  · rw [s.bankReadRange_inside hlen (Bank.ownsSpan_iff.2 ⟨hlo, hhi⟩), s.readSpan_device hk]
  · rw [s.bankWriteRange_readWrite hvs (Bank.ownsSpan_iff.2 ⟨hlo, hhi⟩) hp, s.storeSpan_device hk]

end Sys2Proof.Machine

/-! SUPPORT. The registration of banks (R59 to R61): a bank is registered exactly if it is well-formed and shares no address with a
registered one. -/
namespace Sys2Proof

theorem Bank.wellFormed_iff {b : Bank} : b.wellFormed = true ↔ 1 ≤ b.size ∧ b.offset + b.size ≤ 0x10000 := by
  simp [Bank.wellFormed]

theorem Bank.overlaps_iff {x y : Bank} :
    x.overlaps y = true ↔ x.offset < y.offset + y.size ∧ y.offset < x.offset + x.size := by
  simp [Bank.overlaps]

theorem Bank.overlaps_comm (x y : Bank) : x.overlaps y = y.overlaps x := Bool.and_comm ..

theorem banksWellFormed_iff {bs : List Bank} :
    banksWellFormed bs = true ↔ (∀ b ∈ bs, b.wellFormed = true) ∧ bs.Pairwise fun x y => x.overlaps y = false := by
  induction bs with
  | nil => simp [banksWellFormed]
  | cons b bs ih =>
    simp only [banksWellFormed_cons, ih, List.forall_mem_cons, List.pairwise_cons, Bank.overlaps_comm b]
    tauto

end Sys2Proof

namespace Sys2Proof.Machine

section
variable {banks : List Bank} {b : Bank}

theorem registerBank_illFormed (h : b.wellFormed = false) : registerBank banks b = .error (.badBank b) := by
  simp [registerBank, h]

theorem registerBank_disjoint (hw : b.wellFormed = true) (h : ∀ x ∈ banks, x.overlaps b = false) :
    registerBank banks b = .ok (banks ++ [b]) := by
  have hnone : banks.find? (fun x => x.overlaps b) = none := by simpa using h
  simp [registerBank, hw, hnone]

/-- A well-formed bank that shares an address with a registered one is refused for such a one (R61). -/
theorem registerBank_overlap (hw : b.wellFormed = true) (h : ∃ x ∈ banks, x.overlaps b = true) :
    ∃ x ∈ banks, x.overlaps b = true ∧ registerBank banks b = .error (.overlapError b x) := by
  obtain ⟨x, hx⟩ := Option.isSome_iff_exists.1 (List.find?_isSome.2 h)
  exact ⟨x, List.mem_of_find?_eq_some hx, List.find?_some (p := fun x : Bank => x.overlaps b) hx,
    by simp [registerBank, hw, hx]⟩

/-- A bank is registered exactly if it is well-formed and shares no address with a registered one (R59, R61). -/
theorem registerBank_ok_iff {banks' : List Bank} :
    registerBank banks b = .ok banks' ↔
      b.wellFormed = true ∧ (∀ x ∈ banks, x.overlaps b = false) ∧ banks' = banks ++ [b] := by
  constructor
  · intro h
    cases hw : b.wellFormed with
    | false => rw [registerBank_illFormed hw] at h; cases h
    | true =>
      by_cases hover : ∃ x ∈ banks, x.overlaps b = true
      · obtain ⟨x, -, -, e⟩ := registerBank_overlap hw hover
        rw [e] at h
        cases h
      · have hdisj : ∀ x ∈ banks, x.overlaps b = false := by simpa using hover
        rw [registerBank_disjoint hw hdisj] at h
        cases h
        exact ⟨rfl, hdisj, rfl⟩
  · rintro ⟨hw, hdisj, rfl⟩
    exact registerBank_disjoint hw hdisj

end

/-- Settles O32: the two checks of a registration, in their order. -/
theorem registerBankChecks : Obligations.RegisterBankChecks := by
  intro banks b
  simp only [← Bank.overlaps_iff, Bool.not_eq_true]
  refine ⟨fun hill => ?_, fun hsize hend => ?_⟩
  · have hw : b.wellFormed = false := by
      rw [← Bool.not_eq_true, Bank.wellFormed_iff]
      omega
    exact ⟨⟨_, registerBank_illFormed hw⟩, fun _ => registerBank_illFormed hw⟩
  · have hw : b.wellFormed = true := Bank.wellFormed_iff.2 ⟨hsize, hend⟩
    refine ⟨fun hover => ?_, registerBank_disjoint hw⟩
    simpa only [Bank.overlaps_iff, and_assoc] using registerBank_overlap hw hover

/-- Banks are registered exactly if they and the registered ones are well-formed and disjoint together (R60). -/
theorem registerBanks_ok_iff {banks bs banks' : List Bank} (hbanks : banksWellFormed banks = true) :
    registerBanks banks bs = .ok banks' ↔ banksWellFormed (banks ++ bs) = true ∧ banks' = banks ++ bs := by
  induction bs generalizing banks with
  | nil => simp [registerBanks, hbanks, eq_comm]
  | cons b bs ih =>
    have hstep : banksWellFormed (banks ++ [b]) = true ↔ b.wellFormed = true ∧ ∀ x ∈ banks, x.overlaps b = false := by
      obtain ⟨hw, hdisj⟩ := banksWellFormed_iff.1 hbanks
      rw [banksWellFormed_iff, List.forall_mem_append, List.forall_mem_singleton, List.pairwise_append,
        and_iff_right hw, and_iff_right hdisj]
      simp
    constructor
    · intro h
      obtain ⟨a, ha, h⟩ := inOrder_cons_ok.1 h
      obtain ⟨hw, hdisj, rfl⟩ := registerBank_ok_iff.1 ha
      simpa using (ih (hstep.2 ⟨hw, hdisj⟩)).1 h
    · rintro ⟨hall, rfl⟩
      rw [List.append_cons] at hall
      have hb : banksWellFormed (banks ++ [b]) = true := by
        obtain ⟨hw, hdisj⟩ := banksWellFormed_iff.1 hall
        exact banksWellFormed_iff.2
          ⟨fun x hx => hw x (List.mem_append_left bs hx), (List.pairwise_append.1 hdisj).1⟩
      obtain ⟨hw, hdisj⟩ := hstep.1 hb
      exact inOrder_cons_ok.2 ⟨_, registerBank_disjoint hw hdisj, (ih hb).2 ⟨hall, List.append_cons ..⟩⟩

/-- Settles O33: registered banks are well-formed and disjoint, and so the lookup finds the one owner. -/
theorem registeredBanksAreDisjoint : Obligations.RegisteredBanksAreDisjoint := by
  intro bs banks h
  obtain ⟨hw, rfl⟩ := (registerBanks_ok_iff (banks := []) rfl).1 h
  exact ⟨hw, fun a x y hx hy hxa hya => owner_unique hw hx hy hxa hya, fun a x => ownerOf_eq_some_iff hw⟩

end Sys2Proof.Machine

/-! SUPPORT. The words of the spec and the lengths, read off the opcode table (R90, R102); and that a step runs the instruction
whose bytes it has read (R126). -/
namespace Sys2Proof.Machine

/-! ### The opcode table -/

/-- Settles O18: each word through the opcode table. -/
theorem wordsOfTheSpecDecode : Obligations.WordsOfTheSpecDecode :=
  ⟨rfl, rfl, rfl, rfl, rfl, rfl, rfl, rfl, rfl, rfl⟩

/-- The rows of the table with an operand byte and with two, by their opcodes (R91, R102). -/
theorem opcodeTable_len {row : Row} (hrow : row ∈ opcodeTable) : row.layout.len =
    if row.opcode = 0xEA ∨ row.opcode = 0xFA then 3
    else if row.opcode.toNat ∈ [0x06, 0x0E, 0x16, 0x1E, 0x26, 0x2E, 0x3E, 0xC6, 0xCE, 0xD6, 0xDE, 0xE6, 0xEE, 0xF6, 0xFE] then 2
    else 1 := by
  fin_cases hrow <;> rfl

/-- Settles O20: the instruction's length is that of its row in the opcode table. -/
theorem lengthByOpcode : Obligations.LengthByOpcode := by
  intro i
  obtain ⟨layout, hl, hlen⟩ := lookupOpcode_opcode_len i
  refine ⟨Nat.add_comm .., ?_⟩
  rw [← hlen]
  exact opcodeTable_len (mem_opcodeTable_of_lookupOpcode hl)

/-! ### The step runs what it fetched -/

/-- The first of several bytes read is the one the fetch reads there. -/
theorem fetchByte_of_bytesFetched {s t : State} {k : Nat} {v : Byte} {vs : List Byte}
    (h : bytesFetched s k (v :: vs) t) : ∃ u, s.fetchByte k = .ok v u ∧ bytesFetched u (k + 1) vs t := by
  obtain ⟨b, hb, rfl, h⟩ := h
  exact ⟨_, State.fetchByte_mapped rfl hb, h⟩

/-- An opcode and the operand bytes of its entry, read one after another from pc on, are what the fetch reads (R80, R126). -/
theorem State.fetch_of_bytesFetched {s t : State} {op : Byte} {layout : Layout} {operands : List Byte} {i : Instr}
    (hl : lookupOpcode op = some layout) (hm : Makes layout operands i) (h : bytesFetched s 0 (op :: operands) t) :
    s.fetch = .ok i t := by
  obtain ⟨u, hop, h⟩ := fetchByte_of_bytesFetched h
  cases hm with
  | s i => cases h; simp [State.fetch, hop, hl]
  | i f n =>
    obtain ⟨w, hn, rfl⟩ := fetchByte_of_bytesFetched h
    simp [State.fetch, hop, hl, hn]
  | w f nn =>
    obtain ⟨w, hlo, h⟩ := fetchByte_of_bytesFetched h
    obtain ⟨x, hhi, rfl⟩ := fetchByte_of_bytesFetched h
    simp [State.fetch, hop, hl, hlo, hhi, wordOf_hiByte_loByte]

/-- In storage banks, reading bytes leaves the state (R52). -/
theorem bytesFetched_of_storage {s : State} {k : Nat} {bytes : List Byte}
    (h : ∀ j, ∀ hj : j < bytes.length, storageOwned s.banks (s.pc + BitVec.ofNat 16 (k + j)) = true ∧
      Memory.read s.mem (s.pc + BitVec.ofNat 16 (k + j)).toNat = bytes[j]) : bytesFetched s k bytes s := by
  induction bytes generalizing k with
  | nil => rfl
  | cons v vs ih =>
    obtain ⟨hown, hread⟩ := h 0 (Nat.succ_pos _)
    obtain ⟨b, hb, hk⟩ := storageOwned_iff.1 hown
    refine ⟨b, hb, (s.byteAt_storage hk).trans hread, ?_⟩
    rw [s.noteRead_storage hk]
    refine ih fun j hj => ?_
    rw [Nat.add_right_comm]
    exact h (j + 1) (Nat.succ_lt_succ hj)

/-- The first bytes of those that stand at pc are read there. -/
theorem bytesFetched_of_bytesAtPc {s : State} {bytes rest : List Byte} (h : bytesAtPc s (bytes ++ rest)) :
    bytesFetched s 0 bytes s := by
  refine bytesFetched_of_storage fun j hj => ?_
  have hat := h j (by rw [List.length_append]; omega)
  rw [List.getElem_append_left hj] at hat
  rwa [Nat.zero_add]

theorem step_of_fetch_ok {s t : State} {i : Instr} (hf : s.latch.faulted = false) (h : s.fetch = .ok i t) :
    step s = exec i t := by
  simp [step, hf, h]

/-- Settles O12: the bytes read are the opcode and operand bytes the fetch reads, and in storage banks reads leave the state. -/
theorem stepRunsDecodedInstruction : Obligations.StepRunsDecodedInstruction := by
  refine ⟨fun s t bytes i hf h hd => ?_, fun s bytes rest i hf h hd => ?_⟩
  all_goals obtain ⟨op, layout, operands, hl, hm, rfl⟩ := decode_eq_instr_iff.1 hd
  · rw [List.append_nil] at h
    exact step_of_fetch_ok hf (State.fetch_of_bytesFetched hl hm h)
  · exact step_of_fetch_ok hf (State.fetch_of_bytesFetched hl hm (bytesFetched_of_bytesAtPc h))

end Sys2Proof.Machine

/-! SUPPORT. A boot (R252). Its stages are folds over the banks, so that it answers the machine in which the images are stored one
after another; as the banks are disjoint, each storage bank then holds its own. -/
namespace Sys2Proof.Machine

/-! ### The stages of a boot -/

/-- Where what a part does to the state is a function of both, a stage that succeeds is a fold. -/
theorem inOrder_ok_iff {α β : Type} {f : α → β → Except ConfigFailure α} {g : α → β → α} {P : β → Prop}
    (hf : ∀ a b c, f a b = .ok c ↔ P b ∧ c = g a b) {a c : α} {bs : List β} :
    inOrder f a bs = .ok c ↔ (∀ b ∈ bs, P b) ∧ c = bs.foldl g a := by
  induction bs generalizing a with
  | nil => simp [eq_comm]
  | cons b bs ih => simp [inOrder_cons_ok, hf, ih, and_assoc]

/-- A bank's image stored from the bank's offset on (R58). -/
def State.storeImage (s : State) (x : BankInit) : State := s.storeSpan x.bank x.image (BitVec.ofNat 16 x.bank.offset)

/-- The bank gets its image at its construction, not in the filling (R58, R252). -/
def BankInit.isReadOnly (x : BankInit) : Bool := decide (x.bank.perm = .readOnly)

/-- The order in which a boot stores images: a read-only bank gets its own at construction, before any other (R252). -/
def loadOrder (inits : List BankInit) : List BankInit :=
  inits.filter BankInit.isReadOnly ++ inits.filter (fun x => !x.isReadOnly)

/-- The machine that is loaded: registers and SP as at power-on, the banks registered, no byte listed. -/
def unloadedMachine (inits : List BankInit) (resetPc : Addr) (regs : Regs) (sp : Addr) : State :=
  ⟨regs, sp, resetPc, Latch.clear, 0, [], [], inits.map BankInit.bank, resetPc⟩

/-- The machine when every image is stored, before the reset that ends the boot. -/
def loadedMachine (inits : List BankInit) (resetPc : Addr) (regs : Regs) (sp : Addr) : State :=
  (loadOrder inits).foldl State.storeImage (unloadedMachine inits resetPc regs sp)

section
variable {s t : State} {x : BankInit}

theorem State.loadBank_ok_iff : s.loadBank x = .ok t ↔ x.image.length ≤ x.bank.size ∧ t = s.storeImage x := by
  have hspan : x.bank.ownsSpan x.bank.offset x.image.length = true ↔ x.image.length ≤ x.bank.size := by
    rw [Bank.ownsSpan_iff]
    omega
  unfold State.loadBank
  split
  · next h => simp [hspan.1 h, State.storeImage, eq_comm]
  · next h => simp [hspan.not.1 h]

theorem State.constructBank_ok_iff :
    s.constructBank x = .ok t ↔
      (x.bank.wellFormed = true ∧ (x.isReadOnly = true → x.image.length ≤ x.bank.size)) ∧
        t = if x.isReadOnly = true then s.storeImage x else s := by
  unfold State.constructBank
  cases hw : x.bank.wellFormed with
  | false => simp
  | true =>
    cases hp : x.bank.perm with
    | readOnly => simp [BankInit.isReadOnly, hp, State.loadBank_ok_iff]
    | readWrite => simp [BankInit.isReadOnly, hp, eq_comm]

theorem State.fillBank_ok_iff :
    s.fillBank x = .ok t ↔
      ((!x.isReadOnly) = true → x.image.length ≤ x.bank.size) ∧ t = if (!x.isReadOnly) = true then s.storeImage x else s := by
  unfold State.fillBank
  cases hp : x.bank.perm with
  | readOnly => simp [BankInit.isReadOnly, hp, eq_comm]
  | readWrite => simp [BankInit.isReadOnly, hp, State.loadBank_ok_iff]

end

theorem State.storeSpan_withBanks (s : State) (banks : List Bank) (b : Bank) (vs : List Byte) (a : Addr) :
    { s with banks := banks }.storeSpan b vs a = { s.storeSpan b vs a with banks := banks } := by
  induction vs generalizing s a with
  | nil => rfl
  | cons v vs ih =>
    have hstore : { s with banks := banks }.storeAt b v a = { s.storeAt b v a with banks := banks } := by
      unfold State.storeAt
      cases b.kind <;> rfl
    rw [State.storeSpan, hstore, ih]
    rfl

theorem except_bind_ok_iff {ε α β : Type} {x : Except ε α} {f : α → Except ε β} {c : β} :
    x.bind f = .ok c ↔ ∃ a, x = .ok a ∧ f a = .ok c := by
  cases x <;> simp [Except.bind]

theorem foldl_storeImage_withBanks (s : State) (banks : List Bank) (xs : List BankInit) :
    xs.foldl State.storeImage { s with banks := banks } = { xs.foldl State.storeImage s with banks := banks } :=
  List.foldl_hom (fun t : State => { t with banks := banks }) fun t x => t.storeSpan_withBanks banks x.bank x.image _

/-- A boot of banks succeeds exactly if the banks are well-formed and disjoint and each image fits its bank (R252), and answers the
machine with the images stored, reset. -/
theorem setUpBanks_ok_iff {inits : List BankInit} {resetPc : Addr} {regs : Regs} {sp : Addr} {s : State} :
    setUpBanks inits resetPc regs sp = .ok s ↔
      banksWellFormed (inits.map BankInit.bank) = true ∧ (∀ x ∈ inits, x.image.length ≤ x.bank.size) ∧
        s = (loadedMachine inits resetPc regs sp).hostReset := by
  have hconstruct := @inOrder_ok_iff State BankInit State.constructBank _ _ fun _ _ _ => State.constructBank_ok_iff
  have hfill := @inOrder_ok_iff State BankInit State.fillBank _ _ fun _ _ _ => State.fillBank_ok_iff
  have hregister := fun c => registerBanks_ok_iff (banks := []) (bs := inits.map BankInit.bank) (banks' := c) rfl
  simp only [setUpBanks, except_bind_ok_iff, hconstruct, hfill, hregister, ← List.foldl_filter, List.nil_append,
    and_assoc, exists_and_left, exists_eq_left, ← foldl_storeImage_withBanks, ← List.foldl_append, Except.ok.injEq]
  constructor
  · rintro ⟨hro, hbanks, hrw, rfl⟩
    refine ⟨hbanks, fun x hx => ?_, rfl⟩
    cases hx' : x.isReadOnly with
    | true => exact (hro x hx).2 hx'
    | false => exact hrw x hx (by simp [hx'])
  · rintro ⟨hbanks, hfit, rfl⟩
    have hw := (banksWellFormed_iff.1 hbanks).1
    exact ⟨fun x hx => ⟨hw x.bank (List.mem_map_of_mem hx), fun _ => hfit x hx⟩, hbanks, fun x hx _ => hfit x hx, rfl⟩

/-! ### What the loaded images leave -/

/-- Storing a span changes bytes and what devices have seen, nothing else. -/
theorem State.storeSpan_frame (s : State) (b : Bank) (vs : List Byte) (a : Addr) :
    s.storeSpan b vs a = { s with mem := (s.storeSpan b vs a).mem, events := (s.storeSpan b vs a).events } := by
  induction vs generalizing s a with
  | nil => rfl
  | cons v vs ih =>
    have hstore : s.storeAt b v a = { s with mem := (s.storeAt b v a).mem, events := (s.storeAt b v a).events } := by
      unfold State.storeAt
      cases b.kind <;> rfl
    rw [State.storeSpan, ih, hstore]

/-- Images stored one after another change bytes and what devices have seen, nothing else. -/
theorem foldl_storeImage_frame (s : State) (xs : List BankInit) :
    xs.foldl State.storeImage s =
      { s with mem := (xs.foldl State.storeImage s).mem, events := (xs.foldl State.storeImage s).events } := by
  induction xs generalizing s with
  | nil => rfl
  | cons x xs ih =>
    have hx : s.storeImage x = _ := s.storeSpan_frame ..
    rw [List.foldl_cons, ih, hx]

theorem foldl_storeImage_wf {s : State} {xs : List BankInit} (hm : Memory.wf s.mem = true) :
    Memory.wf (xs.foldl State.storeImage s).mem = true := by
  induction xs generalizing s with
  | nil => exact hm
  | cons x xs ih => exact ih (State.wf_storeSpan _ _ _ hm)

/-- The bank is well-formed and the image fits it (R55, R59). -/
structure BankInit.Loadable (x : BankInit) : Prop where
  wellFormed : x.bank.wellFormed = true
  fits       : x.image.length ≤ x.bank.size

section
variable {x : BankInit} (hx : x.Loadable)
include hx

theorem BankInit.Loadable.toNat_offset : (BitVec.ofNat 16 x.bank.offset).toNat = x.bank.offset := by
  obtain ⟨hsize, hend⟩ := Bank.wellFormed_iff.1 hx.wellFormed
  rw [BitVec.toNat_ofNat, Nat.mod_eq_of_lt (by omega)]

/-- The bank owns the addresses its image goes to. -/
theorem BankInit.Loadable.owns {k : Nat} (hk : k < x.image.length) : x.bank.owns (x.bank.offset + k) = true := by
  have hfits := hx.fits
  exact Bank.owns_iff.2 ⟨by omega, by omega⟩

/-- An address the bank does not own keeps its byte when the image is stored. -/
theorem State.read_storeImage_other (s : State) {p : Nat} (hp : x.bank.owns p = false) :
    Memory.read (s.storeImage x).mem p = Memory.read s.mem p := by
  obtain ⟨hsize, hend⟩ := Bank.wellFormed_iff.1 hx.wellFormed
  have hfits := hx.fits
  have hout := Bank.owns_eq_false_iff.1 hp
  have hoffset := hx.toNat_offset
  exact s.read_storeSpan_other x.bank (by omega) (by omega)

/-- A storage bank holds the image just stored, byte for byte. -/
theorem State.read_storeImage_same {s : State} (hm : Memory.wf s.mem = true) (hk : x.bank.kind = .storage) {k : Nat}
    (h : k < x.image.length) : Memory.read (s.storeImage x).mem (x.bank.offset + k) = x.image[k] := by
  obtain ⟨hsize, hend⟩ := Bank.wellFormed_iff.1 hx.wellFormed
  have hfits := hx.fits
  have hoffset := hx.toNat_offset
  have hread := s.read_storeSpan_same hk hm (vs := x.image) (a := BitVec.ofNat 16 x.bank.offset) (by omega) k h
  rwa [hoffset] at hread

end

theorem read_foldl_storeImage_other {s : State} {xs : List BankInit} {p : Nat}
    (h : ∀ x ∈ xs, x.Loadable ∧ x.bank.owns p = false) :
    Memory.read (xs.foldl State.storeImage s).mem p = Memory.read s.mem p := by
  induction xs generalizing s with
  | nil => rfl
  | cons x xs ih =>
    obtain ⟨⟨hx, hp⟩, hxs⟩ := List.forall_mem_cons.1 h
    rw [List.foldl_cons, ih hxs, State.read_storeImage_other hx s hp]

/-- Of disjoint banks, each storage bank holds its image when all are stored: those stored after it go elsewhere. -/
theorem read_foldl_storeImage_same {s : State} {xs : List BankInit} (hm : Memory.wf s.mem = true)
    (hxs : ∀ x ∈ xs, x.Loadable) (hdisj : xs.Pairwise fun x y => x.bank.overlaps y.bank = false) {x : BankInit} (hx : x ∈ xs)
    (hk : x.bank.kind = .storage) {k : Nat} (h : k < x.image.length) :
    Memory.read (xs.foldl State.storeImage s).mem (x.bank.offset + k) = x.image[k] := by
  induction xs generalizing s with
  | nil => cases hx
  | cons y ys ih =>
    obtain ⟨hy, hys⟩ := List.forall_mem_cons.1 hxs
    obtain ⟨hydisj, hysdisj⟩ := List.pairwise_cons.1 hdisj
    rw [List.foldl_cons]
    obtain rfl | hx := List.mem_cons.1 hx
    · have hother : ∀ z ∈ ys, z.Loadable ∧ z.bank.owns (x.bank.offset + k) = false := fun z hz => by
        refine ⟨hys z hz, Bool.eq_false_iff.2 fun hzk => ?_⟩
        simpa [hydisj z hz] using Bank.overlaps_of_owns (hy.owns h) hzk
      rw [read_foldl_storeImage_other hother, State.read_storeImage_same hy hm hk h]
    · exact ih (State.wf_storeSpan _ _ _ hm) hys hysdisj hx

theorem memoryOwned_storeSpan {s : State} {banks : List Bank} {b : Bank} {vs : List Byte} {a : Addr}
    (hm : memoryOwned banks s.mem = true)
    (h : b.kind = .storage → ∀ k < vs.length, storageOwned banks (a + BitVec.ofNat 16 k) = true) :
    memoryOwned banks (s.storeSpan b vs a).mem = true := by
  induction vs generalizing s a with
  | nil => exact hm
  | cons v vs ih =>
    refine ih ?_ fun hk k hkl => ?_
    · cases hk : b.kind with
      | storage =>
        rw [s.storeAt_storage v hk]
        exact memoryOwned_write v hm (by simpa using h hk 0 (Nat.succ_pos _))
      | device => rwa [s.storeAt_device v a hk]
    · exact addr_succ_add a k ▸ h hk (k + 1) (Nat.succ_lt_succ hkl)

theorem memoryOwned_foldl_storeImage {s : State} {banks : List Bank} {xs : List BankInit}
    (hbanks : banksWellFormed banks = true) (hm : memoryOwned banks s.mem = true)
    (hxs : ∀ x ∈ xs, x.Loadable ∧ x.bank ∈ banks) : memoryOwned banks (xs.foldl State.storeImage s).mem = true := by
  induction xs generalizing s with
  | nil => exact hm
  | cons x xs ih =>
    obtain ⟨⟨hx, hmem⟩, hxs⟩ := List.forall_mem_cons.1 hxs
    refine ih (memoryOwned_storeSpan hm fun hk k hkl => ?_) hxs
    have hown := hx.owns hkl
    obtain ⟨-, hend⟩ := Bank.wellFormed_iff.1 hx.wellFormed
    have haddr : (BitVec.ofNat 16 x.bank.offset + BitVec.ofNat 16 k).toNat = x.bank.offset + k := by
      have hfits := hx.fits
      rw [← BitVec.ofNat_add, BitVec.toNat_ofNat, Nat.mod_eq_of_lt (by omega)]
    exact storageOwned_iff.2 ⟨x.bank, (ownerOf_eq_some_iff hbanks).2 ⟨hmem, haddr ▸ hown⟩, hk⟩

/-! ### A booted machine -/

/-- The table builds (R130), so a boot is the set-up of the banks. -/
theorem boot_eq_setUpBanks (inits : List BankInit) (resetPc : Addr) (regs : Regs) (sp : Addr) :
    boot inits resetPc regs sp = setUpBanks inits resetPc regs sp := by
  obtain ⟨-, hbuild, -⟩ := duplicateOpcodesAreRefused
  rw [boot, hbuild opcodeTable opcodesUnique_opcodeTable]
  rfl

theorem loadOrder_perm (inits : List BankInit) : (loadOrder inits).Perm inits := List.filter_append_perm ..

theorem loadedMachine_frame (inits : List BankInit) (resetPc : Addr) (regs : Regs) (sp : Addr) :
    loadedMachine inits resetPc regs sp =
      { unloadedMachine inits resetPc regs sp with
        mem := (loadedMachine inits resetPc regs sp).mem, events := (loadedMachine inits resetPc regs sp).events } :=
  foldl_storeImage_frame _ _

section
variable {inits : List BankInit} (hbanks : banksWellFormed (inits.map BankInit.bank) = true)
  (hfits : ∀ x ∈ inits, x.image.length ≤ x.bank.size)
include hbanks hfits

theorem loadable_of_mem {x : BankInit} (hx : x ∈ inits) : x.Loadable :=
  ⟨(banksWellFormed_iff.1 hbanks).1 x.bank (List.mem_map_of_mem hx), hfits x hx⟩

theorem loadedMachine_hostReset_inv (resetPc : Addr) (regs : Regs) (sp : Addr) :
    (loadedMachine inits resetPc regs sp).hostReset.Inv := by
  have hwf : Memory.wf (loadedMachine inits resetPc regs sp).mem = true := foldl_storeImage_wf rfl
  have howned : memoryOwned (inits.map BankInit.bank) (loadedMachine inits resetPc regs sp).mem = true :=
    memoryOwned_foldl_storeImage hbanks rfl fun x hx => by
      rw [(loadOrder_perm inits).mem_iff] at hx
      exact ⟨loadable_of_mem hbanks hfits hx, List.mem_map_of_mem hx⟩
  have hb : (loadedMachine inits resetPc regs sp).banks = inits.map BankInit.bank := by rw [loadedMachine_frame]; rfl
  have hlatch := (latchTrue_of_not_faulted (s := (loadedMachine inits resetPc regs sp).hostReset) rfl).2 rfl
  rw [State.Inv, State.hostReset_banks, State.hostReset_mem, hb]
  exact ⟨hbanks, hwf, howned, hlatch⟩

/-- Each storage bank holds its image: the others' images go to addresses it does not own. -/
theorem read_loadedMachine (resetPc : Addr) (regs : Regs) (sp : Addr) {x : BankInit} (hx : x ∈ inits)
    (hk : x.bank.kind = .storage) {k : Nat} (h : k < x.image.length) :
    Memory.read (loadedMachine inits resetPc regs sp).mem (x.bank.offset + k) = x.image[k] := by
  have hperm := loadOrder_perm inits
  have hdisj : (loadOrder inits).Pairwise fun x y => x.bank.overlaps y.bank = false :=
    (hperm.pairwise_iff fun {x y} hxy => by rwa [Bank.overlaps_comm]).2
      (List.pairwise_map.1 (banksWellFormed_iff.1 hbanks).2)
  exact read_foldl_storeImage_same rfl (fun y hy => loadable_of_mem hbanks hfits (hperm.mem_iff.1 hy)) hdisj
    (hperm.mem_iff.2 hx) hk h

end

/-- Settles O5: a boot that succeeds stored the images of disjoint banks, which leaves the rest of the machine; and it succeeds
where they are disjoint and fit. -/
theorem bootedMachineMeetsInvariant : Obligations.BootedMachineMeetsInvariant := by
  simp only [Obligations.BootedMachineMeetsInvariant, boot_eq_setUpBanks, setUpBanks_ok_iff]
  refine ⟨?_, fun inits resetPc regs sp hbanks hfits => ⟨_, hbanks, hfits, rfl⟩⟩
  rintro inits resetPc regs sp s ⟨hbanks, hfits, rfl⟩
  have hframe := loadedMachine_frame inits resetPc regs sp
  have hinv := loadedMachine_hostReset_inv hbanks hfits resetPc regs sp
  have hread x hx hk k h := read_loadedMachine hbanks hfits resetPc regs sp (x := x) hx hk (k := k) h
  generalize loadedMachine inits resetPc regs sp = t at *
  have hpc : t.resetPc = resetPc := by rw [hframe]; rfl
  have hregs : t.regs = regs := by rw [hframe]; rfl
  have hsp : t.sp = sp := by rw [hframe]; rfl
  have hb : t.banks = inits.map BankInit.bank := by rw [hframe]; rfl
  exact ⟨hinv, rfl, step_answers rfl, hpc, hpc, rfl, hregs, hsp, hb, hread⟩

end Sys2Proof.Machine
